-- ==== Sys2Proof/Word.lean ====
section
/-! DEFINITION. The widths of the link engine: a byte (00_scope.md section 5.1), the 16-bit result
(10_state.md R16), the 32-bit command word (30_encoding.md R51) and the 9-bit buffer address (R31, R32). -/

namespace Sys2Proof

/-- A byte: every value the block moves (20_memory.md R33). -/
abbrev Byte := BitVec 8

/-- The width of `bytes_done` and RES_VAL (10_state.md R15, R16). -/
abbrev Half := BitVec 16

/-- A command word `CW` (30_encoding.md R51). -/
abbrev CmdWord := BitVec 32

/-- A buffer address on `ibuf_addr[8:0]` or `obuf_addr[8:0]` (20_memory.md R31, R32). -/
abbrev Addr9 := BitVec 9

/-- `zext_16` of a byte (00_scope.md section 5.1). -/
abbrev zext16 (b : Byte) : Half := b.setWidth 16

end Sys2Proof
end

