-- ==== Sys2Proof/Config.lean ====
section
/-! DEFINITION. The open parameters of the spec (92_eei_decisions.md "Open parameters, collected") and the one
free value of the environment. The parameters are plain data that State carries unchanged, so a statement about
every state is a statement about every parameter value. -/

namespace Sys2Proof

/-- The Node Configuration: the four registers of 10_state.md R10 to R13. -/
structure NodeConfig where
  /-- MYADDR (R11). -/
  myaddr : Byte
  /-- TMOATT, the retry budget (R12). -/
  tmoatt : Byte
  /-- PINSEL (R13). -/
  pinsel : Byte
  /-- PORTSEL (R13). -/
  portsel : Byte
  deriving DecidableEq, Repr

/-- The open parameters. The ranges of 00_scope.md R6, R7 and 92_eei_decisions.md D10 are held by the types:
`payload` is `PAYLOAD_SIZE - 1` (so `1 <= PAYLOAD_SIZE <= 251`), `settle` is `SETTLE_UNITS - 2`
(so `2 <= SETTLE_UNITS < 65536`). -/
structure Params where
  payload : Fin 251
  settle : Fin 65534
  /-- RETRY_DELAY_UNITS. -/
  retry : BitVec 16
  /-- RESET_CFG (10_state.md R21). -/
  resetCfg : NodeConfig
  deriving DecidableEq, Repr

namespace Config

/-- The parameters State.reset starts with. DESIGN CHOICE (log entries 1 and 5, unsafe): the spec leaves all of
them open; PAYLOAD_SIZE is the 4 of its own examples (D26). No statement rests on these values. -/
def resetParams : Params where
  payload := 3
  settle := 0
  retry := 0
  resetCfg := { myaddr := 0, tmoatt := 0, pinsel := 0, portsel := 0 }

/-- FREE VALUE (log entry 6): the byte the link answers with at the `n`-th read for which the state lists
no byte, "any byte 0x00 to 0xFF, chosen by the environment" (20_memory.md R38). It has no body. -/
opaque linkByte : Nat → Byte

end Config

end Sys2Proof
end

