-- ==== Sys2Proof/Syntax.lean ====
section
/-! DEFINITION. The rows of spec/opcode_table.json: twelve commands and four reserved opcodes of the command word
(30_encoding.md R52, R54) and the two kinds of wire frame (R55, R56). A command keeps the operands its row lists and
no other field: a field a row does not list is ignored (R53). -/

namespace Sys2Proof

inductive Instr where
  /-- SETADDR `a` (45_config.md R140). -/
  | setaddr (a : Byte)
  /-- SETTMO `a` (R141). -/
  | settmo (a : Byte)
  /-- SETPIN `a` (R142). -/
  | setpin (a : Byte)
  /-- SETPORT `a` (R143). -/
  | setport (a : Byte)
  /-- CRC `n` (40_checksum.md R73). -/
  | crc (n : Byte)
  /-- ENCD `a` destination, `b` source (41_codec.md R84). -/
  | encd (a b : Byte)
  /-- ENCA `a` destination, `b` source, `n` echo (R85). -/
  | enca (a b n : Byte)
  /-- DEC (R86). -/
  | dec
  /-- SYNC `a` address, `ako` Ack-only (42_sync.md R96). -/
  | sync (a : Byte) (ako : Bool)
  /-- SEND `a` destination, `n` size, `blk` blocking (43_send.md R100). -/
  | send (a n : Byte) (blk : Bool)
  /-- RECV `n` size, `blk` blocking, `ako` Ack-only (44_recv.md R120). -/
  | recv (n : Byte) (blk ako : Bool)
  /-- RECVACK (R127). -/
  | recvack
  /-- The reserved opcode 0x0 (30_encoding.md R54). -/
  | reserved0
  /-- The reserved opcode 0xD (R54). -/
  | reservedD
  /-- The reserved opcode 0xE (R54). -/
  | reservedE
  /-- The reserved opcode 0xF (R54). -/
  | reservedF
  /-- A frame of kind 0x01 on the line: destination, source, payload, trailing byte (R55, R56). -/
  | frameData (dest src : Byte) (payload : List Byte) (sum : Byte)
  /-- A frame of kind 0x02 on the line: destination, source, payload, trailing byte (R55, R56, R59). -/
  | frameAck (dest src : Byte) (payload : List Byte) (sum : Byte)
  deriving DecidableEq, Repr

end Sys2Proof
end

