-- ==== Sys2Proof/WellFormed.lean ====
section
/-! DEFINITION. What an instruction's fields must satisfy beyond their types. A command has no further condition:
"every value of every operand of every defined command has a defined behaviour" (60_exceptions.md R153). A frame's
payload has between 1 and 251 bytes (00_scope.md R6). -/

namespace Sys2Proof

/-- The bounds of PAYLOAD_SIZE (00_scope.md R6). -/
abbrev payloadOk (payload : List Byte) : Prop := 1 ≤ payload.length ∧ payload.length ≤ 251

abbrev Instr.WellFormed : Instr → Prop
  | .setaddr _ => True
  | .settmo _ => True
  | .setpin _ => True
  | .setport _ => True
  | .crc _ => True
  | .encd _ _ => True
  | .enca _ _ _ => True
  | .dec => True
  | .sync _ _ => True
  | .send _ _ _ => True
  | .recv _ _ _ => True
  | .recvack => True
  | .reserved0 => True
  | .reservedD => True
  | .reservedE => True
  | .reservedF => True
  | .frameData _ _ payload _ => payloadOk payload
  | .frameAck _ _ payload _ => payloadOk payload

end Sys2Proof
end

