-- ==== Sys2Proof/Decode.lean ====
section
/-! DEFINITION. Decoding and encoding: the command word (30_encoding.md R51, R52) and the wire frame (R55, R56).
A command comes to the command port and a frame to the link; as bytes the two are told apart by their length,
4 for a command and `PAYLOAD_SIZE + 4 >= 5` for a frame. -/

namespace Sys2Proof

/-- Why bytes are no instruction. -/
inductive DecodeError where
  /-- Neither 4 bytes nor a frame of 5 to 255 bytes (30_encoding.md R51, R55; 00_scope.md R6). -/
  | badLength
  /-- A frame whose kind byte is neither 0x01 nor 0x02 (30_encoding.md R57). -/
  | reservedKind
  deriving DecidableEq, Repr

/-! ### The command word -/

/-- `CW[3:0]` (R51). -/
def fieldOp (w : CmdWord) : BitVec 4 := w.extractLsb' 0 4
/-- `CW[4]` (R51). -/
def fieldBlk (w : CmdWord) : Bool := w.getLsbD 4
/-- `CW[5]` (R51). -/
def fieldAko (w : CmdWord) : Bool := w.getLsbD 5
/-- `CW[15:8]` (R51). -/
def fieldA (w : CmdWord) : Byte := w.extractLsb' 8 8
/-- `CW[23:16]` (R51). -/
def fieldB (w : CmdWord) : Byte := w.extractLsb' 16 8
/-- `CW[31:24]` (R51). -/
def fieldN (w : CmdWord) : Byte := w.extractLsb' 24 8

/-- The opcode map of R52 and R54. It looks at `CW[3:0]` alone to choose the row, and every word has one. -/
def decodeCommand (w : CmdWord) : Instr :=
  match (fieldOp w).toNat with
  | 0x1 => .setaddr (fieldA w)
  | 0x2 => .settmo (fieldA w)
  | 0x3 => .setpin (fieldA w)
  | 0x4 => .setport (fieldA w)
  | 0x5 => .crc (fieldN w)
  | 0x6 => .encd (fieldA w) (fieldB w)
  | 0x7 => .enca (fieldA w) (fieldB w) (fieldN w)
  | 0x8 => .dec
  | 0x9 => .sync (fieldA w) (fieldAko w)
  | 0xA => .send (fieldA w) (fieldN w) (fieldBlk w)
  | 0xB => .recv (fieldN w) (fieldBlk w) (fieldAko w)
  | 0xC => .recvack
  | 0xD => .reservedD
  | 0xE => .reservedE
  | 0xF => .reservedF
  | _ => .reserved0

/-! ### The wire frame -/

/-- The kind code of a Data frame (R56). -/
def kindData : Byte := 0x01
/-- The kind code of an Ack frame (R56). -/
def kindAck : Byte := 0x02

/-- `[dest][src][kind][payload...][checksum]` (R55). -/
def frameBytes (dest src kind : Byte) (payload : List Byte) (sum : Byte) : List Byte :=
  dest :: src :: kind :: payload ++ [sum]

/-- A frame of 5 to 255 bytes is read by its kind byte, the whole of it compared (R55, R56); the checksum is not
tested, "re-derived by the caller, not trusted" (41_codec.md R82). -/
def decodeFrame : List Byte → Except DecodeError Instr
  | dest :: src :: kind :: rest =>
    if payloadOk rest.dropLast then
      if kind = kindData then .ok (.frameData dest src rest.dropLast (rest.getLastD 0))
      else if kind = kindAck then .ok (.frameAck dest src rest.dropLast (rest.getLastD 0))
      else .error .reservedKind
    else .error .badLength
  | _ => .error .badLength

/-! ### Bytes -/

/-- The command word whose least significant byte comes first (log entry 8). -/
def wordOfBytes (b0 b1 b2 b3 : Byte) : CmdWord :=
  b0.setWidth 32 ||| b1.setWidth 32 <<< 8 ||| b2.setWidth 32 <<< 16 ||| b3.setWidth 32 <<< 24

/-- The four bytes of a command word, least significant first (log entry 8). -/
def bytesOfWord (w : CmdWord) : List Byte :=
  [w.extractLsb' 0 8, w.extractLsb' 8 8, w.extractLsb' 16 8, w.extractLsb' 24 8]

/-- The decoder: total on any bytes. -/
def decode : List Byte → Except DecodeError Instr
  | [b0, b1, b2, b3] => .ok (decodeCommand (wordOfBytes b0 b1 b2 b3))
  | bytes => decodeFrame bytes

/-! ### Encoding -/

/-- `CW = op | blk << 4 | ako << 5 | a << 8 | b << 16 | n << 24` (R62), the unused bits 0. -/
def packCommand (op : BitVec 4) (blk ako : Bool) (a b n : Byte) : CmdWord :=
  op.setWidth 32 ||| (BitVec.ofBool blk).setWidth 32 <<< 4 ||| (BitVec.ofBool ako).setWidth 32 <<< 5 |||
    a.setWidth 32 <<< 8 ||| b.setWidth 32 <<< 16 ||| n.setWidth 32 <<< 24

/-- The bytes of an instruction: four for a command, the frame's own for a frame. -/
def encode : Instr → List Byte
  | .setaddr a => bytesOfWord (packCommand 0x1 false false a 0 0)
  | .settmo a => bytesOfWord (packCommand 0x2 false false a 0 0)
  | .setpin a => bytesOfWord (packCommand 0x3 false false a 0 0)
  | .setport a => bytesOfWord (packCommand 0x4 false false a 0 0)
  | .crc n => bytesOfWord (packCommand 0x5 false false 0 0 n)
  | .encd a b => bytesOfWord (packCommand 0x6 false false a b 0)
  | .enca a b n => bytesOfWord (packCommand 0x7 false false a b n)
  | .dec => bytesOfWord (packCommand 0x8 false false 0 0 0)
  | .sync a ako => bytesOfWord (packCommand 0x9 false ako a 0 0)
  | .send a n blk => bytesOfWord (packCommand 0xA blk false a 0 n)
  | .recv n blk ako => bytesOfWord (packCommand 0xB blk ako 0 0 n)
  | .recvack => bytesOfWord (packCommand 0xC false false 0 0 0)
  | .reserved0 => bytesOfWord (packCommand 0x0 false false 0 0 0)
  | .reservedD => bytesOfWord (packCommand 0xD false false 0 0 0)
  | .reservedE => bytesOfWord (packCommand 0xE false false 0 0 0)
  | .reservedF => bytesOfWord (packCommand 0xF false false 0 0 0)
  | .frameData dest src payload sum => frameBytes dest src kindData payload sum
  | .frameAck dest src payload sum => frameBytes dest src kindAck payload sum

/-! ### The opcode table's numbering -/

/-- The `n` bytes of a word numbered as the table numbers it: bits 7 to 0 are the first byte. -/
def tableBytes : Nat → Nat → List Byte
  | 0, _ => []
  | n + 1, w => BitVec.ofNat 8 w :: tableBytes n (w / 256)

/-- The bytes of the instruction a table word of `nbits` bits stands for: a command word's four for at most 32 bits,
a frame's own for more (log entry 9). -/
def tableInstrBytes (nbits w : Nat) : List Byte := tableBytes (if nbits ≤ 32 then 4 else nbits / 8) w

/-- The instruction the decoder reads from a word numbered as spec/opcode_table.json numbers it. -/
def decodeTableWord (nbits w : Nat) : Option Instr := (decode (tableInstrBytes nbits w)).toOption

end Sys2Proof
end

