-- ==== Sys2Proof/Machine/State.lean ====
section
/-! DEFINITION. The state of the link engine (10_state.md, 20_memory.md), the ways a step can stop, and the state
after reset (10_state.md R21). -/

namespace Sys2Proof.Machine

/-- The control state (10_state.md R14). -/
inductive Fsm where
  | idle
  | sending
  | awaitingAck
  | acked
  | retrying
  | timedOut
  | receiving
  | replying
  | unit
  deriving DecidableEq, Repr

/-- One event of the link trace (20_memory.md R37 to R39, R42). -/
inductive LinkEvent where
  | tx (b : Byte)
  | rx (b : Byte)
  | delay (units : BitVec 16)
  deriving DecidableEq, Repr

/-- What the outside world does to the block, one action at a time. -/
inductive Input where
  /-- The host presents a command word and holds it until it is accepted (30_encoding.md R50). -/
  | command (w : CmdWord)
  /-- The host takes the waiting result (R50). -/
  | takeResult
  /-- The host writes a byte of IBUF (20_memory.md R31, R46). -/
  | writeIbuf (addr : Addr9) (b : Byte)
  /-- The host writes a byte of OBUF, which it owns between commands (R46). -/
  | writeObuf (addr : Addr9) (b : Byte)
  /-- Bytes pass on the line (R36, R42; 60_exceptions.md R162): the block hears them if it is listening. -/
  | line (bytes : List Byte)
  /-- The reset input is high for a clock cycle, after so many of the byte accesses and delays of the transfer under
  way (70_reset_and_hazards.md R170). -/
  | rst (accesses : Nat)
  /-- The link answers so many more of the requests of the transfer under way, short of its last one, and from then on
  none (R37 to R39, 70_reset_and_hazards.md R186). -/
  | stall (requests : Nat)
  /-- The link answers again. -/
  | answer
  /-- Nothing happens at the block's ports while a running command makes one control transfer. -/
  | wait
  deriving DecidableEq, Repr

/-- The fields of the command word latched at acceptance (10_state.md R15, 20_memory.md R47). -/
structure Latches where
  op : BitVec 4
  blk : Bool
  ako : Bool
  a : Byte
  b : Byte
  n : Byte
  deriving DecidableEq, Repr

/-- The other data-path registers (10_state.md R15). -/
structure Work where
  pkts : Byte
  k : Byte
  attempts : Byte
  o : BitVec 9
  bytesDone : Half
  crc : Byte
  deriving DecidableEq, Repr

/-- Where a command stands beyond what R14 and R15 name: the variables `fnd`, `la`, `lb`, `lc` of RECV's
pseudocode (44_recv.md R120), and which of the two Sending rows of 43_send.md R110 the block is in. -/
structure Progress where
  /-- Sending is a retransmission. -/
  resend : Bool
  fnd : Bool
  la : Byte
  lb : Byte
  lc : Byte
  deriving DecidableEq, Repr

/-- The result registers and flags (10_state.md R16). -/
structure Result where
  /-- RES_VAL. -/
  val : Half := 0
  /-- RES_A. -/
  a : Byte := 0
  /-- RES_B. -/
  b : Byte := 0
  /-- RES_C. -/
  c : Byte := 0
  /-- FND. -/
  fnd : Bool := false
  /-- TMO. -/
  tmo : Bool := false
  /-- ILL. -/
  ill : Bool := false
  deriving DecidableEq, Repr

/-- A buffer memory: the bytes that differ from what an unlisted address reads as, addresses rising. -/
abbrev Memory := List Host.Cell

/-- The state: the block's own (first group) and the parameters and environment it runs in (second group). -/
structure State where
  /-- Node Configuration (10_state.md R10). -/
  cfg : NodeConfig
  /-- Control state (R14). -/
  fsm : Fsm
  /-- Latched command fields (R15). -/
  cmd : Latches
  /-- Data-path registers (R15). -/
  work : Work
  /-- Variables of the running command. -/
  prog : Progress
  /-- Result registers and flags (R16). -/
  res : Result
  /-- `res_valid`: a result waits to be taken (30_encoding.md R50). -/
  resValid : Bool
  /-- TXF (R17). -/
  txf : List Byte
  /-- WIN (R18). -/
  win : List Byte
  /-- The index `i` at which a `Transmit` or a `Capture()` waits for the link (20_memory.md R40, R41): how many of the
  transfer's requests the link has answered; a whole `Transmit` before its settle delay counts FRAME_SIZE. -/
  part : Nat
  /-- IBUF (20_memory.md R31). -/
  ibuf : Memory
  /-- OBUF (R32). -/
  obuf : Memory
  /-- The link trace since the last reset, oldest event first (R42). -/
  trace : List LinkEvent
  /-- The link events before the last reset: they "have happened and are not undone" (70_reset_and_hazards.md R170).
  -/
  past : List LinkEvent
  /-- The open parameters; no step changes them. -/
  par : Params
  /-- Bytes that passed on the line while the block was listening and are not read yet, next first (20_memory.md
  R42). -/
  line : List Byte
  /-- The bytes the link oracle will answer with, next first, when `line` has none (93_implementation_defined.md U5).
  -/
  rx : List Byte
  /-- How many free bytes the link has answered with beyond `line` and `rx`. -/
  draws : Nat
  /-- The link answers no request, so that a transfer that needs it waits (70_reset_and_hazards.md R186). -/
  silent : Bool
  /-- The coming actions of the host, the link and the line, next first. -/
  inputs : List Input
  deriving DecidableEq, Repr

/-- The reasons a machine stops with a fault. There is none: "no command can trap, fault or abort for a reason
inside the block" (60_exceptions.md R150). -/
inductive Fault where
  deriving DecidableEq, Repr

/-- The reasons an instruction has no meaning. -/
inductive Refusal where
  /-- Raised by an arm of `exec` whose instruction has no meaning yet, and by nothing else. Safe: nothing can be
  proved of a next state. No arm raises it now. -/
  | notModelled (mnemonic : String)
  deriving DecidableEq, Repr

/-- The state right after reset (10_state.md R21), the block's memories and parameters as log entries 1 to 7, 16
and 20 say. -/
def State.reset : State where
  cfg := Config.resetParams.resetCfg
  fsm := .idle
  cmd := { op := 0, blk := false, ako := false, a := 0, b := 0, n := 0 }
  work := { pkts := 0, k := 0, attempts := 0, o := 0, bytesDone := 0, crc := 0 }
  prog := { resend := false, fnd := false, la := 0, lb := 0, lc := 0 }
  res := {}
  resValid := false
  txf := List.replicate (Config.resetParams.payload.val + 5) 0
  win := List.replicate (2 * (Config.resetParams.payload.val + 5)) 0
  part := 0
  ibuf := []
  obuf := []
  trace := []
  past := []
  par := Config.resetParams
  line := []
  rx := []
  draws := 0
  silent := false
  inputs := []

end Sys2Proof.Machine
end

