-- ==== Sys2Proof/Machine/Ops.lean ====
section
/-! DEFINITION. The named operations: the parameters' sizes (00_scope.md R5, R6), the buffer memories (20_memory.md
R30 to R33), the link (R36 to R42), command acceptance (30_encoding.md R50), the host's actions and reset
(10_state.md R21, 70_reset_and_hazards.md R170). The block takes no exception (60_exceptions.md R150), so there is
no operation that enters or leaves one. -/

namespace Sys2Proof

/-! ### Sizes -/

/-- PAYLOAD_SIZE (00_scope.md R6). -/
def Params.payloadSize (p : Params) : Nat := p.payload.val + 1
/-- FRAME_SIZE (R5). -/
def Params.frameSize (p : Params) : Nat := p.payloadSize + 4
/-- WINDOW_SIZE (R5). -/
def Params.windowSize (p : Params) : Nat := 2 * p.frameSize
/-- SETTLE_UNITS (R7). -/
def Params.settleUnits (p : Params) : BitVec 16 := BitVec.ofNat 16 (p.settle.val + 2)
/-- RETRY_DELAY_UNITS (R7). -/
def Params.retryUnits (p : Params) : BitVec 16 := p.retry

end Sys2Proof

namespace Sys2Proof.Machine

/-- `P` of the rules. -/
def State.payloadSize (s : State) : Nat := s.par.payloadSize
def State.frameSize (s : State) : Nat := s.par.frameSize
def State.windowSize (s : State) : Nat := s.par.windowSize

/-! ### The buffer memories -/

namespace Memory

/-- What an address no entry lists reads as (log entry 4). -/
def unlisted : Byte := 0

/-- The byte at an address. -/
def read : Memory → Nat → Byte
  | [], _ => unlisted
  | (b, v) :: m, a => if a = b then v else read m a

/-- Writes one byte and keeps the canonical form. -/
def write : Memory → Nat → Byte → Memory
  | [], a, v => if v = unlisted then [] else [(a, v)]
  | (b, u) :: m, a, v =>
    if a < b then (if v = unlisted then (b, u) :: m else (a, v) :: (b, u) :: m)
    else if a = b then (if v = unlisted then m else (b, v) :: m)
    else (b, u) :: write m a v

/-- Writes the bytes at `base`, `base + 1`, ... in ascending order, each on the 9 bits of the address port
(20_memory.md R32). -/
def writeBytes (m : Memory) (base : Nat) : List Byte → Memory
  | [] => m
  | v :: vs => writeBytes (write m (base % 512) v) (base + 1) vs

/-- Reads `n` bytes at `base`, `base + 1`, ... in ascending order, each on the 9 bits of the address port
(20_memory.md R31). -/
def readBytes (m : Memory) (base : Nat) : Nat → List Byte
  | 0 => []
  | n + 1 => read m (base % 512) :: readBytes m (base + 1) n

/-- Addresses strictly rising from `lo`, all below 512, no entry equal to what an unlisted address reads as. -/
def wfFrom (lo : Nat) : Memory → Bool
  | [] => true
  | (b, v) :: m => decide (lo ≤ b) && decide (b < 512) && decide (v ≠ unlisted) && wfFrom (b + 1) m

/-- The canonical form. -/
def wf (m : Memory) : Bool := wfFrom 0 m

end Memory

/-! ### The link -/

/-- Appends an event to the link trace (20_memory.md R42). -/
def State.record (s : State) (e : LinkEvent) : State := { s with trace := s.trace ++ [e] }

/-- `LinkSendByte(b)` (R37). -/
def State.linkSendByte (s : State) (b : Byte) : State := s.record (.tx b)

/-- `LinkRecvByte()` (R38): the next byte heard on the line, else the oracle's next answer, else a free byte. -/
def State.linkRecvByte (s : State) : Byte × State :=
  match s.line with
  | b :: rest => (b, { s with line := rest }.record (.rx b))
  | [] =>
    match s.rx with
    | b :: rest => (b, { s with rx := rest }.record (.rx b))
    | [] => (Config.linkByte s.draws, { s with draws := s.draws + 1 }.record (.rx (Config.linkByte s.draws)))

/-- `LinkDelay(n)`: a recorded no-op (R39). -/
def State.linkDelay (s : State) (n : BitVec 16) : State := s.record (.delay n)

/-- Sends bytes in ascending index. -/
def State.sendBytes (s : State) : List Byte → State
  | [] => s
  | b :: bs => (s.linkSendByte b).sendBytes bs

/-- `Transmit(TXF)` (R40), from the byte it has come to. -/
def State.transmit (s : State) : State := s.sendBytes (s.txf.drop s.part)

/-- Receives `n` bytes, the first received first. -/
def State.recvBytes (s : State) : Nat → List Byte × State
  | 0 => ([], s)
  | n + 1 =>
    match s.linkRecvByte with
    | (b, s) =>
      match s.recvBytes n with
      | (bs, s) => (b :: bs, s)

/-- How many bytes of the window a `Capture()` still asks for. -/
def State.windowRest (s : State) : Nat := s.windowSize - s.part

/-- `Capture()` (R41): all of WIN, ascending, from the byte it has come to. -/
def State.capture (s : State) : State :=
  match s.recvBytes s.windowRest with
  | (bs, t) => { t with win := s.win.take s.part ++ bs }

/-- The control states in which the block listens: it is at a `Capture()` (70_reset_and_hazards.md R179). -/
@[simp] def Fsm.listens : Fsm → Bool
  | .awaitingAck => true
  | .receiving => true
  | .idle => false
  | .sending => false
  | .acked => false
  | .retrying => false
  | .timedOut => false
  | .replying => false
  | .unit => false

/-- The control states whose transfer makes requests of the link (R37 to R39; 43_send.md R110, 44_recv.md R120). -/
@[simp] def Fsm.usesLink : Fsm → Bool
  | .sending => true
  | .awaitingAck => true
  | .retrying => true
  | .receiving => true
  | .replying => true
  | .idle => false
  | .acked => false
  | .timedOut => false
  | .unit => false

/-- The transfer under way waits on the link's handshake: "a link that never answers stalls any command that uses it"
(70_reset_and_hazards.md R186). -/
def State.stalled (s : State) : Bool := s.silent && s.fsm.usesLink

/-- The link answers again. -/
def State.linkAnswers (s : State) : State := { s with silent := false }

/-- Bytes pass on the line. A listening block hears them, after those it has heard already; "bytes that pass on the
line while the block is transmitting, delaying or idle are never captured" (R42). -/
def State.hear (s : State) (bytes : List Byte) : State :=
  { s with line := if s.fsm.listens then s.line ++ bytes else s.line }

/-- What passed on the line and was not read is gone (R42). -/
def State.dropLine (s : State) : State := { s with line := [] }

/-! ### Buffer accesses of a command -/

/-- `IBUF[base .. base + n)` (R31, R43). -/
def State.ibufBytes (s : State) (base n : Nat) : List Byte := Memory.readBytes s.ibuf base n

/-- `OBUF[base .. base + len(bs)) <- bs` (R32, R43). -/
def State.obufStore (s : State) (base : Nat) (bs : List Byte) : State :=
  { s with obuf := Memory.writeBytes s.obuf base bs }

/-! ### Command acceptance and the control state -/

/-- `cmd_ready` (30_encoding.md R50). -/
def State.cmdReady (s : State) : Bool := decide (s.fsm = .idle) && !s.resValid

/-- `pin_sel` and `port_sel` follow their registers (10_state.md R13). -/
def State.pinSel (s : State) : Byte := s.cfg.pinsel
def State.portSel (s : State) : Byte := s.cfg.portsel

/-- The whole command word is sampled once, at acceptance (20_memory.md R47). -/
def State.latch (s : State) (w : CmdWord) : State :=
  { s with cmd := { op := fieldOp w, blk := fieldBlk w, ako := fieldAko w,
                    a := fieldA w, b := fieldB w, n := fieldN w } }

/-- `fsm <- S` (00_scope.md section 5.3): a new transfer, at its first request. A block that stops listening keeps
nothing of the line (R42). -/
def State.setFsm (s : State) (f : Fsm) : State :=
  { s with fsm := f, part := 0, line := if f.listens then s.line else [] }

/-! ### The outside world's actions -/

/-- No action that lands while a command runs, and no spacing, is next: a running command's step is then a control
transfer of its own (log entry 7). -/
def State.quiet (s : State) : Bool :=
  match s.inputs with
  | .rst _ :: _ => false
  | .line _ :: _ => false
  | .stall _ :: _ => false
  | .answer :: _ => false
  | .wait :: _ => false
  | .command _ :: _ => true
  | .takeResult :: _ => true
  | .writeIbuf _ _ :: _ => true
  | .writeObuf _ _ :: _ => true
  | [] => true

/-- The result is taken: `res_valid` falls (30_encoding.md R50). -/
def State.takeResult (s : State) : State := { s with resValid := false }

def State.hostWriteIbuf (s : State) (addr : Addr9) (b : Byte) : State :=
  { s with ibuf := Memory.write s.ibuf addr.toNat b }

def State.hostWriteObuf (s : State) (addr : Addr9) (b : Byte) : State :=
  { s with obuf := Memory.write s.obuf addr.toNat b }

/-! ### Reset -/

/-- `rst` sampled high: the table of 10_state.md R21, whatever the block was doing; the link events performed have
happened, but the trace begins again empty (70_reset_and_hazards.md R170). The memories, the parameters and the
environment are not the block's to reset. -/
def State.afterReset (s : State) : State where
  cfg := s.par.resetCfg
  fsm := .idle
  cmd := { op := 0, blk := false, ako := false, a := 0, b := 0, n := 0 }
  work := { pkts := 0, k := 0, attempts := 0, o := 0, bytesDone := 0, crc := 0 }
  prog := { resend := false, fnd := false, la := 0, lb := 0, lc := 0 }
  res := {}
  resValid := false
  txf := List.replicate s.frameSize 0
  win := List.replicate s.windowSize 0
  part := 0
  ibuf := s.ibuf
  obuf := s.obuf
  trace := []
  past := s.past ++ s.trace
  par := s.par
  line := []
  rx := s.rx
  draws := s.draws
  silent := s.silent
  inputs := s.inputs

end Sys2Proof.Machine
end

