-- ==== Sys2Proof/Machine/Operands.lean ====
section
/-! DEFINITION. The operand forms: latching a command's own operands, and the operands of the command in execution
(30_encoding.md R60), with RECVACK's implicit ones (44_recv.md R127); the packet count (43_send.md R101) and a
packet's message bytes (R102). -/

namespace Sys2Proof.Machine

/-! ### Latching a command's operands

A command latches the fields its row lists; the others keep what the command word put there (R47, R53). -/

def State.latchOp (s : State) (op : BitVec 4) : State := { s with cmd := { s.cmd with op := op } }
def State.latchA (s : State) (a : Byte) : State := { s with cmd := { s.cmd with a := a } }
def State.latchB (s : State) (b : Byte) : State := { s with cmd := { s.cmd with b := b } }
def State.latchN (s : State) (n : Byte) : State := { s with cmd := { s.cmd with n := n } }
def State.latchBlk (s : State) (blk : Bool) : State := { s with cmd := { s.cmd with blk := blk } }
def State.latchAko (s : State) (ako : Bool) : State := { s with cmd := { s.cmd with ako := ako } }

/-! ### The operands of the command in execution -/

/-- RECVACK is in execution. -/
def State.isRecvack (s : State) : Bool := decide (s.cmd.op = 0xC)

/-- `size`: the operand `n`, or PAYLOAD_SIZE for RECVACK (R127). -/
def State.opSize (s : State) : Nat := if s.isRecvack then s.payloadSize else s.cmd.n.toNat

/-- `blk`, or 1 for RECVACK (R127). -/
def State.opBlk (s : State) : Bool := s.isRecvack || s.cmd.blk

/-- `ako`, or 1 for RECVACK (R127). -/
def State.opAko (s : State) : Bool := s.isRecvack || s.cmd.ako

/-! ### Packets -/

/-- `ceil(size / P)`, the exact value (43_send.md R101). -/
def packetCount (size p : Nat) : Nat := if size = 0 then 0 else (size - 1) / p + 1

/-- One message byte: IBUF below `size`, 0x00 at and above it, where IBUF is not read (R102). -/
def State.messageByte (s : State) (size idx : Nat) : Byte :=
  if idx < size then Memory.read s.ibuf (idx % 512) else 0x00

/-- `pl` of packet `k` (R102). -/
def State.chunk (s : State) (size k : Nat) : List Byte :=
  (List.range s.payloadSize).map fun i => s.messageByte size (k * s.payloadSize + i)

end Sys2Proof.Machine
end

