-- ==== Sys2Proof/Machine/Flags.lean ====
section
/-! DEFINITION. The result registers and the flags FND, TMO, ILL: written together by `complete(...)` and by reset
and by nothing else (10_state.md R16; 00_scope.md section 5.6). A field a command does not name is written with 0:
the defaults of Result. -/

namespace Sys2Proof.Machine

/-- `complete(...)`: the results are written, the control state returns to Idle and the result waits. -/
def State.complete (s : State) (r : Result) : State := { s.setFsm .idle with res := r, resValid := true }

end Sys2Proof.Machine
end

