-- ==== Sys2Proof/Machine/Checksum.lean ====
section
/-! DEFINITION. The Checksum Engine and the CRC command (40_checksum.md). -/

namespace Sys2Proof.Machine

/-- The feedback constant (00_scope.md R5). -/
def crcFeedback : Byte := 0x8C
/-- The initial value (R5). -/
def crcInit : Byte := 0x00

/-- One of the eight rounds of `crc8_step`: `mix <- c[0] xor x[0]`, shift, conditional feedback (R71). -/
def crcRound (c x : Byte) : Byte :=
  if c.getLsbD 0 ^^ x.getLsbD 0 then (c >>> 1) ^^^ crcFeedback else c >>> 1

/-- `n` rounds, bit 0 of the input first. -/
def crcRounds : Nat → Byte → Byte → Byte
  | 0, c, _ => c
  | n + 1, c, x => crcRounds n (crcRound c x) (x >>> 1)

/-- `crc8_step(c, byte)` (R71). -/
def crc8Step (c byte : Byte) : Byte := crcRounds 8 c byte

/-- `crc8(B)` (R71). -/
def crc8 (bs : List Byte) : Byte := bs.foldl crc8Step crcInit

/-- A use of the engine leaves the checksum in the accumulator `crc` (10_state.md R15). -/
def State.setCrc (s : State) (c : Byte) : State := { s with work := { s.work with crc := c } }

/-- `crc8(IBUF[0 .. n))` (R73). -/
def State.crcOperand (s : State) : Byte := crc8 (s.ibufBytes 0 s.cmd.n.toNat)

/-- CRC in execution (R73). -/
def State.finishCrc (s : State) : State := (s.setCrc s.crcOperand).complete { val := zext16 s.crcOperand }

/-- CRC (R73). -/
def execCrc (n : Byte) (s : State) : Host.Outcome State Fault Refusal :=
  .next (((s.latchOp 0x5).latchN n).setFsm .unit).finishCrc

end Sys2Proof.Machine
end

