-- ==== Sys2Proof/Machine/Codec.lean ====
section
/-! DEFINITION. The Frame Codec and the commands ENCD, ENCA, DEC (41_codec.md). -/

namespace Sys2Proof.Machine

/-- `F[i]` of a byte sequence; the rules never index past its end. -/
def byteAt (bs : List Byte) (i : Nat) : Byte := bs.getD i 0

/-- `B[lo .. lo + n)` (00_scope.md section 5.2). -/
def slice (bs : List Byte) (lo n : Nat) : List Byte := (bs.drop lo).take n

/-- Header and payload followed by their checksum (30_encoding.md R55, R58). -/
def withChecksum (body : List Byte) : List Byte := body ++ [crc8 body]

/-- `EncodeData(d, s, pl)` (R80). -/
def encodeData (d src : Byte) (pl : List Byte) : List Byte := withChecksum (d :: src :: kindData :: pl)

/-- `EncodeAck(d, s, e)` for payloads of `p` bytes (R81). -/
def encodeAck (p : Nat) (d src e : Byte) : List Byte :=
  withChecksum (d :: src :: kindAck :: List.replicate p e)

/-- The fields `Decode(F)` returns (R82). -/
structure FrameFields where
  dest : Byte
  src : Byte
  kind : Byte
  payload : List Byte
  deriving DecidableEq, Repr

/-- `Decode(F)`: it checks nothing (R82). -/
def decodeFields (p : Nat) (f : List Byte) : FrameFields where
  dest := byteAt f 0
  src := byteAt f 1
  kind := byteAt f 2
  payload := slice f 3 p

/-- `TXF <- F`, the engine having run over the frame's first bytes (10_state.md R17, 40_checksum.md R74). -/
def State.loadTxf (s : State) (f : List Byte) : State :=
  { s with txf := f }.setCrc (byteAt f (s.frameSize - 1))

/-- The end ENCD and ENCA share: the frame goes to TXF and OBUF, its last byte is the result (R84, R85).
That ENCA writes OBUF is R85's word against the table of 20_memory.md R43: DESIGN CHOICE (log entry 19). -/
def State.emitFrame (s : State) (f : List Byte) : State :=
  ((s.loadTxf f).obufStore 0 f).complete { val := zext16 (byteAt f (s.frameSize - 1)) }

/-- The Data frame ENCD builds of its operands and `IBUF[0 .. P)` (R84). -/
def State.encdFrame (s : State) : List Byte := encodeData s.cmd.a s.cmd.b (s.ibufBytes 0 s.payloadSize)

/-- The Ack frame ENCA builds of its operands (R85). -/
def State.encaFrame (s : State) : List Byte := encodeAck s.payloadSize s.cmd.a s.cmd.b s.cmd.n

/-- The fields DEC reads of `IBUF[0 .. F)` (R86). -/
def State.decFields (s : State) : FrameFields := decodeFields s.payloadSize (s.ibufBytes 0 s.frameSize)

/-- ENCD in execution (R84). -/
def State.finishEncd (s : State) : State := s.emitFrame s.encdFrame

/-- ENCA in execution (R85; log entry 19). -/
def State.finishEnca (s : State) : State := s.emitFrame s.encaFrame

/-- DEC in execution (R86). -/
def State.finishDec (s : State) : State :=
  (s.obufStore 0 s.decFields.payload).complete { a := s.decFields.dest, b := s.decFields.src, c := s.decFields.kind }

/-- ENCD (R84). -/
def execEncd (a b : Byte) (s : State) : Host.Outcome State Fault Refusal :=
  .next ((((s.latchOp 0x6).latchA a).latchB b).setFsm .unit).finishEncd

/-- ENCA (R85). -/
def execEnca (a b n : Byte) (s : State) : Host.Outcome State Fault Refusal :=
  .next (((((s.latchOp 0x7).latchA a).latchB b).latchN n).setFsm .unit).finishEnca

/-- DEC (R86). -/
def execDec (s : State) : Host.Outcome State Fault Refusal :=
  .next ((s.latchOp 0x8).setFsm .unit).finishDec

end Sys2Proof.Machine
end

