-- ==== Sys2Proof/Machine/Frames.lean ====
section
/-! DEFINITION. The two FRAME rows of the opcode table: a wire frame is no command; it is what a node puts on the
line. Its effect on this block is that its bytes pass on the line, destination first, checksum last: a listening
block hears them and its capture returns them, a block that transmits, delays or is idle never captures them
(30_encoding.md R55; 20_memory.md R34, R38, R42; log entry 11). -/

namespace Sys2Proof.Machine

/-- A Data frame on the line (R55, R56). -/
def execFrameData (dest src : Byte) (payload : List Byte) (sum : Byte) (s : State) :
    Host.Outcome State Fault Refusal :=
  .next (s.hear (frameBytes dest src kindData payload sum))

/-- An Ack frame on the line (R55, R56, R59). -/
def execFrameAck (dest src : Byte) (payload : List Byte) (sum : Byte) (s : State) :
    Host.Outcome State Fault Refusal :=
  .next (s.hear (frameBytes dest src kindAck payload sum))

end Sys2Proof.Machine
end

