-- ==== Sys2Proof/Machine/Synchronizer.lean ====
section
/-! DEFINITION. The Frame Synchronizer and the SYNC command (42_sync.md). -/

namespace Sys2Proof.Machine

/-- What `Sync` returns (R90). -/
inductive SyncResult where
  | none
  | data (o : Nat)
  | ack (o : Nat) (e : Byte)
  deriving DecidableEq, Repr

/-- ACK_ECHO_OFFSET: the last payload byte (00_scope.md R7; 90_conflicts.md C2). -/
def ackEchoOffset (p : Nat) : Nat := 3 + p - 1

/-- Whether offset `o` is a candidate: the checksum test (R92). -/
def isCandidate (p : Nat) (w : List Byte) (o : Nat) : Bool :=
  decide (crc8 (slice w o (p + 3)) = byteAt w (o + (p + 3)))

/-- The tests made at one offset, in their order: checksum (R92), destination (R93), kind (R94). `none` goes on
with the next offset. -/
def syncAt (p : Nat) (w : List Byte) (addr : Byte) (ako : Bool) (o : Nat) : SyncResult :=
  if isCandidate p w o = false then .none
  else if byteAt w o ≠ addr then .none
  else if byteAt w (o + 2) = kindAck then
    (if ako then .ack o (byteAt w (o + ackEchoOffset p)) else .none)
  else if byteAt w (o + 2) = kindData then
    (if ako then .none else .data o)
  else .none

/-- The next `n` offsets from `o`, ascending; the first that passes ends the scan (R91). -/
def syncFrom (p : Nat) (w : List Byte) (addr : Byte) (ako : Bool) : Nat → Nat → SyncResult
  | 0, _ => .none
  | n + 1, o =>
    match syncAt p w addr ako o with
    | .none => syncFrom p w addr ako n (o + 1)
    | r => r

/-- `Sync(W, addr, ako)` (R90): offsets 0 to FRAME_SIZE inclusive. -/
def sync (p : Nat) (w : List Byte) (addr : Byte) (ako : Bool) : SyncResult :=
  syncFrom p w addr ako (p + 4 + 1) 0

/-- The last offset a scan tried. -/
def SyncResult.lastOffset (p : Nat) : SyncResult → Nat
  | .none => p + 4
  | .data o => o
  | .ack o _ => o

/-- What a scan of the window `w` hands on to OBUF: the payload of a Data match, nothing else (R96; 44_recv.md R124).
-/
def SyncResult.stores (p : Nat) (w : List Byte) : SyncResult → List Byte
  | .none => []
  | .data o => slice w (o + 3) p
  | .ack _ _ => []

/-- `r <- Sync(WIN, addr, ako)` for the window in WIN. -/
def State.scanResult (s : State) (addr : Byte) (ako : Bool) : SyncResult := sync s.payloadSize s.win addr ako

/-- What the scan leaves in the registers `o` and `crc` (10_state.md R15). -/
def State.scanned (s : State) (addr : Byte) (ako : Bool) : State :=
  let o := (s.scanResult addr ako).lastOffset s.payloadSize
  { s with work := { s.work with o := BitVec.ofNat 9 o, crc := crc8 (slice s.win o (s.payloadSize + 3)) } }

/-- `WIN <- IBUF[0 .. W)` (R96). -/
def State.loadWin (s : State) : State := { s with win := s.ibufBytes 0 s.windowSize }

/-- SYNC's three completions (R96). -/
def State.syncCase (s : State) : SyncResult → State
  | .none => s.complete {}
  | .data o =>
    (s.obufStore 0 (slice s.win (o + 3) s.payloadSize)).complete
      { val := BitVec.ofNat 16 o, a := kindData, b := byteAt s.win (o + 1),
        c := byteAt s.win (o + s.frameSize - 1), fnd := true }
  | .ack o e =>
    s.complete { val := BitVec.ofNat 16 o, a := kindAck, b := byteAt s.win (o + 1), c := e, fnd := true }

/-- SYNC in execution (R96). -/
def State.finishSync (s : State) : State :=
  (s.loadWin.scanned s.cmd.a s.cmd.ako).syncCase (s.loadWin.scanResult s.cmd.a s.cmd.ako)

/-- SYNC (R96). -/
def execSync (a : Byte) (ako : Bool) (s : State) : Host.Outcome State Fault Refusal :=
  .next ((((s.latchOp 0x9).latchA a).latchAko ako).setFsm .unit).finishSync

end Sys2Proof.Machine
end

