-- ==== Sys2Proof/Machine/Transmission.lean ====
section
/-! DEFINITION. The Transmission Controller: one definition per row of the state machine of 43_send.md R110. -/

namespace Sys2Proof.Machine

/-! ### The loop registers (10_state.md R15) -/

def State.setPkts (s : State) (v : Byte) : State := { s with work := { s.work with pkts := v } }
def State.setK (s : State) (v : Byte) : State := { s with work := { s.work with k := v } }
def State.setAttempts (s : State) (v : Byte) : State := { s with work := { s.work with attempts := v } }
/-- Which Sending row of R110 comes next. -/
def State.setResend (s : State) (v : Bool) : State := { s with prog := { s.prog with resend := v } }

/-! ### From packet to packet -/

/-- `pkts <- ceil(size / P)` (R101; 44_recv.md R121). -/
def State.countPackets (s : State) : State := s.setPkts (BitVec.ofNat 8 (packetCount s.opSize s.payloadSize))

/-- `complete(val = size)` (R109). -/
def State.completeSize (s : State) : State := s.complete { val := BitVec.ofNat 16 s.opSize }

/-- Into Sending for the packet in `k`: step 1 of R100, the Data frame is built in TXF (R102). -/
def State.buildPacket (s : State) : State :=
  ((s.setFsm .sending).setResend false).loadTxf
    (encodeData s.cmd.a s.cfg.myaddr (s.chunk s.opSize s.work.k.toNat))

/-- SEND accepted (the rows from Idle): nothing to send completes at once, else packet 0 is built. -/
def State.startSend (s : State) : State :=
  if s.opSize = 0 then s.countPackets.completeSize else (s.countPackets.setK 0).buildPacket

/-- After a packet: the next one is built, or the command completes with `size` (R109). -/
def State.nextPacket (s : State) : State :=
  if s.work.k.toNat + 1 < s.work.pkts.toNat then (s.setK (s.work.k + 1)).buildPacket else s.completeSize

/-! ### Sending -/

/-- After a first transmission: the acknowledge wait with a fresh budget (R107), or the next packet (R108). -/
def State.afterFirst (s : State) : State :=
  if s.opBlk then (s.setAttempts 0).setFsm .awaitingAck else s.nextPacket

/-- Sending: a first transmission with its settle delay (R103), or a retransmission of the same frame (R107). -/
def State.tickSending (s : State) : State :=
  if s.prog.resend then (s.transmit.setAttempts (s.work.attempts + 1)).setFsm .awaitingAck
  else (s.transmit.linkDelay s.par.settleUnits).afterFirst

/-! ### AwaitingAck -/

/-- The attempt matched: an Ack whose echo is the trailing byte of TXF (R105). -/
def State.ackMatches (s : State) : SyncResult → Bool
  | .ack _ e => decide (e = byteAt s.txf (s.frameSize - 1))
  | .data _ => false
  | .none => false

/-- Match (R105), else timeout (R106), else retry (R107), tested in that order (60_exceptions.md R156). -/
def State.judgeAttempt (s : State) (r : SyncResult) : State :=
  if s.ackMatches r then s.setFsm .acked
  else if s.cfg.tmoatt.toNat < s.work.attempts.toNat then s.setFsm .timedOut
  else s.setFsm .retrying

/-- AwaitingAck: one attempt is one capture and one scan (R104). -/
def State.tickAwaitingAck (s : State) : State :=
  (s.capture.scanned s.cfg.myaddr true).judgeAttempt (s.capture.scanResult s.cfg.myaddr true)

/-! ### Retrying and TimedOut -/

/-- Retrying: the retry delay, then the same frame again (R107). -/
def State.tickRetrying (s : State) : State :=
  ((s.linkDelay s.par.retryUnits).setResend true).setFsm .sending

/-- The count a timeout reports: `(k = 0 ? 0 : k - 1) * P` (R106). -/
def timeoutCount (k p : Nat) : Nat := (if k = 0 then 0 else k - 1) * p

/-- TimedOut: the command completes with the partial count and TMO (R106; 60_exceptions.md R157). -/
def State.tickTimedOut (s : State) : State :=
  s.complete { val := BitVec.ofNat 16 (timeoutCount s.work.k.toNat s.payloadSize), tmo := true }

end Sys2Proof.Machine
end

