-- ==== Sys2Proof/Machine/Reception.lean ====
section
/-! DEFINITION. The Reception Controller: the loop of 44_recv.md R120, one definition per control state. -/

namespace Sys2Proof.Machine

/-! ### The loop's head -/

/-- The tests at the head of the loop (R122, R123). -/
def State.recvDone (s : State) : Bool :=
  if s.opBlk then decide (s.opSize ≤ s.work.bytesDone.toNat)
  else decide (s.work.pkts.toNat ≤ s.work.k.toNat)

/-- The result of a RECV whose loop has ended (R128). -/
def State.recvResult (s : State) : Result :=
  { val := s.work.bytesDone, a := s.prog.la, b := s.prog.lb, c := s.prog.lc, fnd := s.prog.fnd }

/-- The head of the loop: completion or one more pass. -/
def State.recvHead (s : State) : State :=
  if s.recvDone then s.complete s.recvResult else s.setFsm .receiving

/-- `bytes_done <- 0 ; k <- 0 ; fnd <- 0 ; la <- 0 ; lb <- 0 ; lc <- 0` (R120). -/
def State.clearRecv (s : State) : State :=
  { s with
    work := { s.work with bytesDone := 0, k := 0 }
    prog := { s.prog with fnd := false, la := 0, lb := 0, lc := 0 } }

/-- RECV accepted: the registers and variables of R120 are set and the loop begins. Nothing of what passed on the
line before is captured (20_memory.md R42). -/
def State.startRecv (s : State) : State := s.dropLine.countPackets.clearRecv.recvHead

/-- `if blk = 0: k <- k + 1`, then the head of the loop. -/
def State.recvNext (s : State) : State :=
  if s.opBlk then s.recvHead else (s.setK (s.work.k + 1)).recvHead

/-! ### A pass -/

/-- The frame matched at offset `o` becomes the last matched one, its payload counted (R124, R128). -/
def State.noteMatch (s : State) (o : Nat) : State :=
  { s with
    work := { s.work with bytesDone := s.work.bytesDone + BitVec.ofNat 16 s.payloadSize }
    prog := { s.prog with fnd := true, la := kindData, lb := byteAt s.win (o + 1),
                          lc := byteAt s.win (o + s.frameSize - 1) } }

/-- A Data match: the payload is appended to OBUF (R124). -/
def State.recvAppend (s : State) (o : Nat) : State :=
  (s.obufStore s.work.bytesDone.toNat (slice s.win (o + 3) s.payloadSize)).noteMatch o

/-- Into Replying: the Ack of the matched frame is built in TXF (R125). -/
def State.buildReply (s : State) (o : Nat) : State :=
  (s.setFsm .replying).loadTxf
    (encodeAck s.payloadSize (byteAt s.win (o + 1)) s.cfg.myaddr (byteAt s.win (o + s.frameSize - 1)))

/-- After a Data match: a non-blocking RECV replies, a blocking one goes on (R125). -/
def State.afterAppend (s : State) (o : Nat) : State :=
  if s.opBlk then s.recvHead else s.buildReply o

/-- What a pass does with the scan's answer (R120). -/
def State.recvCase (s : State) : SyncResult → State
  | .data o => (s.recvAppend o).afterAppend o
  | .ack o e => s.complete { val := zext16 e, a := kindAck, b := byteAt s.win (o + 1), c := e, fnd := true }
  | .none => s.recvNext

/-- Receiving: one capture and one scan (R121). -/
def State.tickReceiving (s : State) : State :=
  (s.capture.scanned s.cfg.myaddr s.opAko).recvCase (s.capture.scanResult s.cfg.myaddr s.opAko)

/-- Replying: the Ack goes out at once, with no delay (R125). -/
def State.tickReplying (s : State) : State := s.transmit.recvNext

end Sys2Proof.Machine
end

