-- ==== Sys2Proof/Machine/Reserved.lean ====
section
/-! DEFINITION. The reserved opcodes 0x0, 0xD, 0xE, 0xF (30_encoding.md R54, 60_exceptions.md R154). -/

namespace Sys2Proof.Machine

/-- `complete(ILL = 1)` and no other effect (R54). -/
def State.finishReserved (s : State) : State := s.complete { ill := true }

def execReserved0 (s : State) : Host.Outcome State Fault Refusal :=
  .next ((s.latchOp 0x0).setFsm .unit).finishReserved
def execReservedD (s : State) : Host.Outcome State Fault Refusal :=
  .next ((s.latchOp 0xD).setFsm .unit).finishReserved
def execReservedE (s : State) : Host.Outcome State Fault Refusal :=
  .next ((s.latchOp 0xE).setFsm .unit).finishReserved
def execReservedF (s : State) : Host.Outcome State Fault Refusal :=
  .next ((s.latchOp 0xF).setFsm .unit).finishReserved

end Sys2Proof.Machine
end

