-- ==== Sys2Proof/Machine/Setters.lean ====
section
/-! DEFINITION. The configuration surface: SETADDR, SETTMO, SETPIN, SETPORT (45_config.md R140 to R143). Each writes
its own register and the result registers, nothing else. -/

namespace Sys2Proof.Machine

/-- SETADDR in execution (R140). -/
def State.finishSetaddr (s : State) : State := { s with cfg := { s.cfg with myaddr := s.cmd.a } }.complete {}

/-- SETADDR (R140). -/
def execSetaddr (a : Byte) (s : State) : Host.Outcome State Fault Refusal :=
  .next (((s.latchOp 0x1).latchA a).setFsm .unit).finishSetaddr

/-- SETTMO in execution (R141). -/
def State.finishSettmo (s : State) : State := { s with cfg := { s.cfg with tmoatt := s.cmd.a } }.complete {}

/-- SETTMO (R141). -/
def execSettmo (a : Byte) (s : State) : Host.Outcome State Fault Refusal :=
  .next (((s.latchOp 0x2).latchA a).setFsm .unit).finishSettmo

/-- SETPIN in execution (R142). -/
def State.finishSetpin (s : State) : State := { s with cfg := { s.cfg with pinsel := s.cmd.a } }.complete {}

/-- SETPIN (R142). -/
def execSetpin (a : Byte) (s : State) : Host.Outcome State Fault Refusal :=
  .next (((s.latchOp 0x3).latchA a).setFsm .unit).finishSetpin

/-- SETPORT in execution (R143). -/
def State.finishSetport (s : State) : State := { s with cfg := { s.cfg with portsel := s.cmd.a } }.complete {}

/-- SETPORT (R143). -/
def execSetport (a : Byte) (s : State) : Host.Outcome State Fault Refusal :=
  .next (((s.latchOp 0x4).latchA a).setFsm .unit).finishSetport

end Sys2Proof.Machine
end

