-- ==== Sys2Proof/Machine/Unit.lean ====
section
/-! DEFINITION. The control state Unit: the one-step commands in execution (10_state.md R14), by the opcode latched at
acceptance. -/

namespace Sys2Proof.Machine

/-- The one transfer of a command in Unit: its whole effect and its completion. The opcodes 0xA, 0xB, 0xC are never
in Unit: their case is the model's (log entry 14). -/
def State.finishUnit (s : State) : State :=
  match s.cmd.op.toNat with
  | 0x1 => s.finishSetaddr
  | 0x2 => s.finishSettmo
  | 0x3 => s.finishSetpin
  | 0x4 => s.finishSetport
  | 0x5 => s.finishCrc
  | 0x6 => s.finishEncd
  | 0x7 => s.finishEnca
  | 0x8 => s.finishDec
  | 0x9 => s.finishSync
  | 0xA => s.complete {}
  | 0xB => s.complete {}
  | 0xC => s.complete {}
  | _ => s.finishReserved

/-- The bytes a command in Unit writes to `OBUF[0 ..)`, in their order: ENCD, ENCA, DEC and SYNC write it (41_codec.md
R84 to R86, 42_sync.md R96). DESIGN CHOICE (log entry 19): for ENCA this is R85, where the table of 20_memory.md R43 has
no OBUF write. -/
def State.unitStores (s : State) : List Byte :=
  match s.cmd.op.toNat with
  | 0x6 => s.encdFrame
  | 0x7 => s.encaFrame
  | 0x8 => s.decFields.payload
  | 0x9 => (s.loadWin.scanResult s.cmd.a s.cmd.ako).stores s.payloadSize s.loadWin.win
  | _ => []

end Sys2Proof.Machine
end

