-- ==== Sys2Proof/Machine/Control.lean ====
section
/-! DEFINITION. The control state machine (10_state.md R14, 43_send.md R110): one transfer, and how far a command
runs by itself. -/

namespace Sys2Proof.Machine

/-- The latched command begins: the transfer out of Idle (10_state.md R14, 43_send.md R110). -/
def State.startCommand (s : State) : State :=
  match s.cmd.op.toNat with
  | 0xA => s.startSend
  | 0xB => s.startRecv
  | 0xC => s.startRecv
  | _ => s.setFsm .unit

/-- One control transfer of the command in execution. In Idle nothing is in execution. -/
def State.tick (s : State) : State :=
  match s.fsm with
  | .idle => s
  | .sending => s.tickSending
  | .awaitingAck => s.tickAwaitingAck
  | .acked => s.nextPacket
  | .retrying => s.tickRetrying
  | .timedOut => s.tickTimedOut
  | .receiving => s.tickReceiving
  | .replying => s.tickReplying
  | .unit => s.finishUnit

/-- One control transfer, where the link answers: a transfer that waits on it leaves the block as it is
(70_reset_and_hazards.md R186). -/
def State.transfer (s : State) : State := if s.stalled then s else s.tick

/-- The transfer waits on a link that does not answer, or a blocking command is about to capture and the link has been
given no byte to answer with: the states in which it may wait for ever (44_recv.md R129, 70_reset_and_hazards.md R186;
log entry 10). -/
def State.awaitsLink (s : State) : Bool :=
  s.stalled || (s.opBlk && s.fsm.listens && s.line.isEmpty && s.rx.isEmpty)

/-- Runs the command for at most `n` transfers, to its completion or until it awaits the link. -/
def State.run : Nat → State → State
  | 0, s => s
  | n + 1, s => if s.fsm = .idle ∨ s.awaitsLink = true then s else State.run n s.tick

/-- A bound on the transfers a command makes before it completes or awaits the link: three for every capture
(at least one listed byte each), and two for each of at most 255 packets (43_send.md R101). -/
def State.runBound (s : State) : Nat := 3 * (s.line.length + s.rx.length) + 520

/-- Runs the accepted command on. -/
def State.runCommand (s : State) : State := State.run s.runBound s

end Sys2Proof.Machine
end

