-- ==== Sys2Proof/Machine/Recv.lean ====
section
/-! DEFINITION. The RECV and RECVACK commands (44_recv.md R120, R127). -/

namespace Sys2Proof.Machine

/-- RECV (R120 to R128). -/
def execRecv (n : Byte) (blk ako : Bool) (s : State) : Host.Outcome State Fault Refusal :=
  .next ((((s.latchOp 0xB).latchN n).latchBlk blk).latchAko ako).startRecv.runCommand

/-- RECVACK: in every respect `RECV n=PAYLOAD_SIZE blk=1 ako=1` (R127). -/
def execRecvack (s : State) : Host.Outcome State Fault Refusal :=
  .next (s.latchOp 0xC).startRecv.runCommand

end Sys2Proof.Machine
end

