-- ==== Sys2Proof/Machine/Send.lean ====
section
/-! DEFINITION. The SEND command (43_send.md R100). -/

namespace Sys2Proof.Machine

/-- SEND (R100 to R109). -/
def execSend (a n : Byte) (blk : Bool) (s : State) : Host.Outcome State Fault Refusal :=
  .next ((((s.latchOp 0xA).latchA a).latchN n).latchBlk blk).startSend.runCommand

end Sys2Proof.Machine
end

