-- ==== Sys2Proof/Machine/Dispatch.lean ====
section
/-! DEFINITION. One arm per row of the opcode table. -/

namespace Sys2Proof.Machine

def exec (i : Instr) (s : State) : Host.Outcome State Fault Refusal :=
  match i with
  | .setaddr a => Sys2Proof.Machine.execSetaddr a s
  | .settmo a => Sys2Proof.Machine.execSettmo a s
  | .setpin a => Sys2Proof.Machine.execSetpin a s
  | .setport a => Sys2Proof.Machine.execSetport a s
  | .crc n => Sys2Proof.Machine.execCrc n s
  | .encd a b => Sys2Proof.Machine.execEncd a b s
  | .enca a b n => Sys2Proof.Machine.execEnca a b n s
  | .dec => Sys2Proof.Machine.execDec s
  | .sync a ako => Sys2Proof.Machine.execSync a ako s
  | .send a n blk => Sys2Proof.Machine.execSend a n blk s
  | .recv n blk ako => Sys2Proof.Machine.execRecv n blk ako s
  | .recvack => Sys2Proof.Machine.execRecvack s
  | .reserved0 => Sys2Proof.Machine.execReserved0 s
  | .reservedD => Sys2Proof.Machine.execReservedD s
  | .reservedE => Sys2Proof.Machine.execReservedE s
  | .reservedF => Sys2Proof.Machine.execReservedF s
  | .frameData dest src payload sum => Sys2Proof.Machine.execFrameData dest src payload sum s
  | .frameAck dest src payload sum => Sys2Proof.Machine.execFrameAck dest src payload sum s

end Sys2Proof.Machine
end

