-- ==== Sys2Proof/Machine/Interrupted.lean ====
section
/-! DEFINITION. A control transfer that reset cuts short (70_reset_and_hazards.md R170) or that waits on the link
(R186): what it has done after its first accesses. An access is one byte sent, one byte received, one delay or one byte written to OBUF, in the order
the command's pseudocode gives them (20_memory.md R33, R44); those made already (`part`) are not made again. -/

namespace Sys2Proof.Machine

/-- Sending cut short: "a frame in the middle of Transmit stops after the byte last handed to the link"; the settle
delay follows a whole first transmission. -/
def State.sendingAccesses (s : State) (m : Nat) : State :=
  if s.frameSize - s.part < m ∧ s.prog.resend = false then s.transmit.linkDelay s.par.settleUnits
  else s.sendBytes ((s.txf.drop s.part).take m)

/-- A capture cut short. -/
def State.captureAccesses (s : State) (m : Nat) : State := (s.recvBytes (min m s.windowRest)).2

/-- Receiving cut short: in the capture, or in the append that follows it. -/
def State.receivingAccesses (s : State) (m : Nat) : State :=
  if m ≤ s.windowRest then s.captureAccesses m
  else
    s.capture.obufStore s.work.bytesDone.toNat
      (((s.capture.scanResult s.cfg.myaddr s.opAko).stores s.payloadSize s.capture.win).take (m - s.windowRest))

/-- The next `m` accesses of the transfer under way, as far as they outlive a reset: link events, link answers consumed
and OBUF bytes. -/
def State.firstAccesses (s : State) (m : Nat) : State :=
  match s.fsm with
  | .idle => s
  | .sending => s.sendingAccesses m
  | .awaitingAck => s.captureAccesses m
  | .acked => s
  | .retrying => if m = 0 then s else s.linkDelay s.par.retryUnits
  | .timedOut => s
  | .receiving => s.receivingAccesses m
  | .replying => s.sendBytes ((s.txf.drop s.part).take m)
  | .unit => s.obufStore 0 (s.unitStores.take m)

/-- Reset after the next `m` accesses of the transfer under way; one that waits on the link makes none. -/
def State.resetAfter (s : State) (m : Nat) : State :=
  (s.firstAccesses (if s.stalled then 0 else m)).afterReset

/-- How many requests the transfer under way still makes of the link (20_memory.md R37 to R39). -/
def State.requests (s : State) : Nat :=
  match s.fsm with
  | .idle => 0
  | .sending => s.frameSize - s.part + (if s.prog.resend then 0 else 1)
  | .awaitingAck => s.windowRest
  | .acked => 0
  | .retrying => 1
  | .timedOut => 0
  | .receiving => s.windowRest
  | .replying => s.frameSize - s.part
  | .unit => 0

/-- A transmission goes on by `m` bytes and waits at the next. -/
def State.transmitPart (s : State) (m : Nat) : State :=
  { s.sendBytes ((s.txf.drop s.part).take m) with part := s.part + m }

/-- A capture goes on by `m` bytes, into their places of WIN, and waits at the next. -/
def State.capturePart (s : State) (m : Nat) : State :=
  match s.recvBytes m with
  | (bs, t) => { t with win := s.win.take s.part ++ bs ++ s.win.drop (s.part + m), part := s.part + m }

/-- The link answers `m` requests of the transfer under way, not its last. -/
def State.goOn (s : State) (m : Nat) : State :=
  match s.fsm with
  | .idle => s
  | .sending => s.transmitPart m
  | .awaitingAck => s.capturePart m
  | .acked => s
  | .retrying => s
  | .timedOut => s
  | .receiving => s.capturePart m
  | .replying => s.transmitPart m
  | .unit => s

/-- The link answers `m` requests more, short of the transfer's last, and then none (R186). A silent link has answered
its last already. -/
def State.fallSilent (s : State) (m : Nat) : State :=
  { (if s.silent then s else s.goOn (min m (s.requests - 1))) with silent := true }

end Sys2Proof.Machine
end

