-- ==== Sys2Proof/Machine/Environment.lean ====
section
/-! DEFINITION. What one step does with the next action of the host, the link or the line: which action may land when
(20_memory.md R42, R46, 30_encoding.md R50, 60_exceptions.md R155, 70_reset_and_hazards.md R170, R186). -/

namespace Sys2Proof.Machine

/-- A command word at the port: accepted when the block is ready, held otherwise (R50). On acceptance the word is
latched and the command it decodes to is executed; where the next action is one that lands in a running command, the
command only begins, and runs one control transfer a step (log entry 10). -/
def acceptCommand (w : CmdWord) (rest : List Input) (s : State) : Host.Outcome State Fault Refusal :=
  if s.cmdReady then
    let s := { s with inputs := rest }.latch w
    if s.quiet then exec (decodeCommand w) s else .next s.startCommand
  else .next s

/-- Bytes pass on the line: a frame is executed as its row of the table, other bytes pass as they stand. -/
def lineArrives (bytes : List Byte) (s : State) : Host.Outcome State Fault Refusal :=
  match decodeFrame bytes with
  | .ok i => exec i s
  | .error _ => .next (s.hear bytes)

/-- The block is idle: the host's next action, if it has one. -/
def idleStep (s : State) : Host.Outcome State Fault Refusal :=
  match s.inputs with
  | [] => .next s
  | .command w :: rest => acceptCommand w rest s
  | .takeResult :: rest => .next { s with inputs := rest }.takeResult
  | .writeIbuf addr b :: rest => .next ({ s with inputs := rest }.hostWriteIbuf addr b)
  | .writeObuf addr b :: rest => .next ({ s with inputs := rest }.hostWriteObuf addr b)
  | .line bytes :: rest => lineArrives bytes { s with inputs := rest }
  | .rst m :: rest => .next ({ s with inputs := rest }.resetAfter m)
  | .stall m :: rest => .next ({ s with inputs := rest }.fallSilent m)
  | .answer :: rest => .next { s with inputs := rest }.linkAnswers
  | .wait :: rest => .next { s with inputs := rest }

/-- A command is in execution: only reset, the link and the line reach the block; the host's other actions wait (R46,
R155). Otherwise the command makes its next control transfer, if it need not wait on the link. -/
def busyStep (s : State) : Host.Outcome State Fault Refusal :=
  match s.inputs with
  | .line bytes :: rest => lineArrives bytes { s with inputs := rest }
  | .rst m :: rest => .next ({ s with inputs := rest }.resetAfter m)
  | .stall m :: rest => .next ({ s with inputs := rest }.fallSilent m)
  | .answer :: rest => .next { s with inputs := rest }.linkAnswers
  | .wait :: rest => .next { s with inputs := rest }.transfer
  | .command _ :: _ => .next s.transfer
  | .takeResult :: _ => .next s.transfer
  | .writeIbuf _ _ :: _ => .next s.transfer
  | .writeObuf _ _ :: _ => .next s.transfer
  | [] => .next s.transfer

end Sys2Proof.Machine
end

