-- ==== Sys2Proof/Machine/Step.lean ====
section
/-! DEFINITION. One step of the machine, and where its next instruction comes from. -/

namespace Sys2Proof.Machine

/-- One step: the next action of the host, the link or the line, or the running command's next control transfer. -/
def step (s : State) : Host.Outcome State Fault Refusal :=
  if s.fsm = .idle then idleStep s else busyStep s

/-- The state with an instruction at the place the next step takes it from: a command word presented to a ready
command port, or a frame on the line (log entry 7). -/
def State.withFetchWord (s : State) (nbits w : Nat) : State :=
  if nbits ≤ 32 then
    { s with fsm := .idle, resValid := false, inputs := .command (BitVec.ofNat 32 w) :: s.inputs }
  else { s with inputs := .line (tableInstrBytes nbits w) :: s.inputs }

end Sys2Proof.Machine
end

