-- ==== Sys2Proof/Safety.lean ====
section
/-! DEFINITION. The terms claims use: what the link answers, the frame SEND has in flight, and the invariant every
step keeps. The invariant says what a run relies on: the buffer memories are canonical, TXF and WIN have their
lengths, a transfer under way is short of its last request, a block that does not listen keeps nothing of the line
(20_memory.md R42), Unit is the control state of the one-step commands, a result never waits while a command runs, TXF
holds the Data frame of the packet in flight (10_state.md R19), and the receive count leaves room in OBUF (20_memory.md
R43). -/

namespace Sys2Proof.Machine

/-- The next `n` bytes the link answers with: those heard on the line, the oracle's listed ones, then free ones
(20_memory.md R38). -/
def State.linkBytes (s : State) (n : Nat) : List Byte :=
  (s.line ++ s.rx).take n ++
    (List.range (n - (s.line.length + s.rx.length))).map fun i => Config.linkByte (s.draws + i)

/-- The bytes a `Capture()` still takes (R41). -/
def State.nextBytes (s : State) : List Byte := s.linkBytes s.windowRest

/-- The window the next `Capture()` leaves in WIN: what one under way has taken, and the rest (R41). -/
def State.nextWindow (s : State) : List Byte := s.win.take s.part ++ s.nextBytes

/-- The window the first `Capture()` of a command takes: a block that begins to listen has heard nothing on the line
(R42), so the oracle alone answers. -/
def State.oracleWindow (s : State) : List Byte := s.dropLine.linkBytes s.windowSize

/-- The `j`-th window among the bytes listed for the oracle. -/
def State.listedWindow (s : State) (j : Nat) : List Byte :=
  slice s.rx (j * s.windowSize) s.windowSize

/-- The Data frame of packet `k` of a message of `size` bytes to `dest` (43_send.md R102). -/
def State.packetFrame (s : State) (dest : Byte) (size k : Nat) : List Byte :=
  encodeData dest s.cfg.myaddr (s.chunk size k)

/-- A scan's answer for a Data frame at an offset, or for none. -/
def dataAt : Option Nat → SyncResult
  | some o => .data o
  | none => .none

/-- How many of the windows before the `m`-th hold a match, `found` giving each window's. -/
def matchesBefore (found : Nat → Option Nat) (m : Nat) : Nat :=
  ((List.range m).filter fun j => (found j).isSome).length

/-- A window in which an attempt of SEND finds the Ack of a frame: an Ack for this node whose echo is the frame's
trailing byte (R104, R105). -/
def State.windowAcks (s : State) (frame w : List Byte) : Bool :=
  match sync s.payloadSize w s.cfg.myaddr true with
  | .ack _ e => decide (e = byteAt frame (s.frameSize - 1))
  | .data _ => false
  | .none => false

/-- The control states of SEND. -/
abbrev Fsm.sendSide (f : Fsm) : Prop :=
  f = .sending ∨ f = .awaitingAck ∨ f = .acked ∨ f = .retrying ∨ f = .timedOut

/-- The control states of RECV and RECVACK. -/
abbrev Fsm.recvSide (f : Fsm) : Prop := f = .receiving ∨ f = .replying

/-- The buffers: canonical memories, TXF and WIN of their lengths (10_state.md R17, R18). -/
abbrev State.BufInv (s : State) : Prop :=
  Memory.wf s.ibuf = true ∧ Memory.wf s.obuf = true ∧
  s.txf.length = s.frameSize ∧ s.win.length = s.windowSize

/-- While SEND runs: the packet index is below the packet count and TXF holds that packet's frame, over all its
attempts (R19, R101, R102); only a blocking SEND leaves Sending (R108). -/
abbrev State.SendInv (s : State) : Prop :=
  s.cmd.op = 0xA ∧
  s.work.pkts.toNat = packetCount s.cmd.n.toNat s.payloadSize ∧
  s.work.k.toNat < s.work.pkts.toNat ∧
  s.txf = s.packetFrame s.cmd.a s.cmd.n.toNat s.work.k.toNat ∧
  (s.fsm ≠ .sending ∨ s.prog.resend = true → s.cmd.blk = true)

/-- While RECV or RECVACK runs: whole packets have been appended, and the next append stays in OBUF (R43). -/
abbrev State.RecvInv (s : State) : Prop :=
  (s.cmd.op = 0xB ∨ s.cmd.op = 0xC) ∧
  s.work.pkts.toNat = packetCount s.opSize s.payloadSize ∧
  s.work.bytesDone.toNat % s.payloadSize = 0 ∧
  (s.fsm = .receiving →
    if s.opBlk then s.work.bytesDone.toNat < s.opSize
    else s.work.k.toNat < s.work.pkts.toNat ∧ s.work.bytesDone.toNat ≤ s.work.k.toNat * s.payloadSize) ∧
  (s.fsm = .replying →
    s.opBlk = false ∧ s.work.k.toNat < s.work.pkts.toNat ∧
    s.work.bytesDone.toNat ≤ (s.work.k.toNat + 1) * s.payloadSize)

/-- A transfer under way is short of its last request of the link: no transfer that needs none is part-way, nor a single
delay, and one that is has that much of a frame or a window behind it (20_memory.md R40, R41). -/
abbrev State.PartInv (s : State) : Prop :=
  (s.fsm.usesLink = false → s.part = 0) ∧
  (s.fsm = .retrying → s.part = 0) ∧
  (s.fsm = .sending → if s.prog.resend then s.part < s.frameSize else s.part ≤ s.frameSize) ∧
  (s.fsm = .replying → s.part < s.frameSize) ∧
  (s.fsm.listens = true → s.part < s.windowSize)

/-- The line is heard only while the block listens (R42), and only a one-step command is in Unit (10_state.md R14). -/
abbrev State.FsmInv (s : State) : Prop :=
  (s.fsm.listens = false → s.line = []) ∧
  (s.fsm = .unit → s.cmd.op ≠ 0xA ∧ s.cmd.op ≠ 0xB ∧ s.cmd.op ≠ 0xC)

/-- The invariant. -/
abbrev State.Inv (s : State) : Prop :=
  s.BufInv ∧ s.PartInv ∧ s.FsmInv ∧
  (s.fsm ≠ .idle → s.resValid = false) ∧
  (s.fsm.sendSide → s.SendInv) ∧
  (s.fsm.recvSide → s.RecvInv)

end Sys2Proof.Machine
end

