-- ==== Sys2Proof/Certificates/Slice0/Obligations.lean ====
section
/-! DEFINITION. The statements for the provers, each a rule of spec/ or a consequence of rules, over every state and
so over every value of the open parameters. -/

open Sys2Proof Sys2Proof.Machine

/-! ### Encoding -/

/-- 30_encoding.md R51, R52, R55, R62: decoding an encoded well-formed instruction gives it back, every operand at
every value. -/
def Obligations.DecodeEncodeRoundTrip : Prop :=
  ∀ i : Instr, i.WellFormed → decode (encode i) = .ok i

/-- Words written out from R51, R55 and R62 (with 95_test_vectors.md V42, V43) decode to the row they stand for;
a kind byte outside 0x01, 0x02 is refused by name (R57). -/
def Obligations.WrittenWordsDecode : Prop :=
  decodeCommand 0x00001001 = .setaddr 0x10 ∧
  decodeCommand 0x03000005 = .crc 3 ∧
  decodeCommand 0xC4201007 = .enca 0x10 0x20 0xC4 ∧
  decodeCommand 0x00001029 = .sync 0x10 true ∧
  decodeCommand 0x0600201A = .send 0x20 6 true ∧
  decodeCommand 0x0400002B = .recv 4 false true ∧
  decodeCommand 0xFF00003C = .recvack ∧
  decodeCommand 0x1234567E = .reservedE ∧
  decode [0x20, 0x10, 0x01, 0x48, 0x65, 0x6C, 0x6C, 0xC4] = .ok (.frameData 0x20 0x10 [0x48, 0x65, 0x6C, 0x6C] 0xC4) ∧
  decode [0x10, 0x20, 0x02, 0xC4, 0xC4, 0xC4, 0xC4, 0x10] = .ok (.frameAck 0x10 0x20 [0xC4, 0xC4, 0xC4, 0xC4] 0x10) ∧
  decode [0x10, 0x20, 0x03, 0x09, 0x09, 0x09, 0x09, 0x30] = .error .reservedKind

/-- R53: two words that agree on the opcode and on the fields its row of R52 lists do the same, whatever the other
fields and CW[7:6] hold. First clause: the accepting steps end in states that differ at most in the latches of the
word. Second clause: while the command runs, each later step ends so too. -/
def Obligations.UnlistedFieldsAreIgnored : Prop :=
  (∀ (w v : CmdWord) (rest : List Input) (s : State),
    fieldOp w = fieldOp v →
    ((fieldOp w).toNat ∈ [0x1, 0x2, 0x3, 0x4, 0x6, 0x7, 0x9, 0xA] → fieldA w = fieldA v) →
    ((fieldOp w).toNat ∈ [0x6, 0x7] → fieldB w = fieldB v) →
    ((fieldOp w).toNat ∈ [0x5, 0x7, 0xA, 0xB] → fieldN w = fieldN v) →
    ((fieldOp w).toNat ∈ [0xA, 0xB] → fieldBlk w = fieldBlk v) →
    ((fieldOp w).toNat ∈ [0x9, 0xB] → fieldAko w = fieldAko v) →
    s.cmdReady = true →
    ∃ t u : State,
      step { s with inputs := .command w :: rest } = .next t ∧
      step { s with inputs := .command v :: rest } = .next u ∧
      { t with cmd := u.cmd } = u) ∧
  (∀ (s : State) (c : Latches), s.Inv → s.fsm ≠ .idle →
    c.op = s.cmd.op →
    (c.op.toNat ∈ [0x1, 0x2, 0x3, 0x4, 0x6, 0x7, 0x9, 0xA] → c.a = s.cmd.a) →
    (c.op.toNat ∈ [0x6, 0x7] → c.b = s.cmd.b) →
    (c.op.toNat ∈ [0x5, 0x7, 0xA, 0xB] → c.n = s.cmd.n) →
    (c.op.toNat ∈ [0xA, 0xB] → c.blk = s.cmd.blk) →
    (c.op.toNat ∈ [0x9, 0xB] → c.ako = s.cmd.ako) →
    ∃ t u : State, step s = .next t ∧ step { s with cmd := c } = .next u ∧ { t with cmd := u.cmd } = u)

/-! ### The step -/

/-- R47, R50: a ready block accepts the word at its port, latches it and executes the command it decodes to. Where the
next action can land in the running command, the command only begins, and its later transfers are those `exec` makes
at once. These are the model's choice: that a word has bytes, least significant first (log entry 8); that one step
runs a command on, or only begins it (entry 10); and the last clause, that a frame on the line is executed as its row,
in any state (entries 7 and 11). -/
def Obligations.StepRunsDecodedInstruction : Prop :=
  (∀ (s : State) (w : CmdWord) (rest : List Input),
    s.fsm = .idle → s.resValid = false → s.inputs = .command w :: rest →
    let latched := { s with
      inputs := rest
      cmd := { op := fieldOp w, blk := fieldBlk w, ako := fieldAko w, a := fieldA w, b := fieldB w, n := fieldN w } }
    decode (bytesOfWord w) = .ok (decodeCommand w) ∧
    (latched.quiet = true → step s = exec (decodeCommand w) latched) ∧
    (latched.quiet = false → step s = .next latched.startCommand) ∧
    exec (decodeCommand w) latched = .next latched.startCommand.runCommand) ∧
  (∀ (s : State) (bytes : List Byte) (rest : List Input) (i : Instr),
    s.inputs = .line bytes :: rest → decodeFrame bytes = .ok i →
    step s = exec i { s with inputs := rest })

/-- R50, 45_config.md R144, 60_exceptions.md R158: while a command runs or a result waits, no command is accepted: the
word stays at the port and the step does what it does with no word there. Outside Unit, where a setter may be the
running command, the configuration keeps its values. With a result waiting nothing at all changes, so an action behind
the word waits too: that is the model's choice (log entry 7). -/
def Obligations.CommandWaitsUntilReady : Prop :=
  ∀ (s : State) (w : CmdWord) (rest : List Input),
    s.inputs = .command w :: rest → s.cmdReady = false →
    ∃ t, step s = .next t ∧ t.inputs = s.inputs ∧ t.ibuf = s.ibuf ∧
      step { s with inputs := [] } = .next { t with inputs := [] } ∧
      (s.fsm ≠ .unit → t.cfg = s.cfg) ∧
      (s.fsm = .idle → t = s)

/-- 60_exceptions.md R150: no step faults and none is refused, whatever the state. -/
def Obligations.NoStepStops : Prop :=
  ∀ s : State, ∃ t, step s = .next t

/-- 10_state.md R10, R144: only reset and a configuration register's own setter change it: the setter whose word the
step accepts, or the one already in execution. -/
def Obligations.ConfigChangesOnlyBySetters : Prop :=
  ∀ s t : State, step s = .next t →
    t.cfg = s.cfg ∨
    (∃ m rest, s.inputs = .rst m :: rest ∧ t.cfg = s.par.resetCfg) ∨
    (∃ w rest, s.inputs = .command w :: rest ∧ s.cmdReady = true ∧
      ((fieldOp w = 0x1 ∧ t.cfg = { s.cfg with myaddr := fieldA w }) ∨
       (fieldOp w = 0x2 ∧ t.cfg = { s.cfg with tmoatt := fieldA w }) ∨
       (fieldOp w = 0x3 ∧ t.cfg = { s.cfg with pinsel := fieldA w }) ∨
       (fieldOp w = 0x4 ∧ t.cfg = { s.cfg with portsel := fieldA w }))) ∨
    (s.fsm = .unit ∧
      ((s.cmd.op = 0x1 ∧ t.cfg = { s.cfg with myaddr := s.cmd.a }) ∨
       (s.cmd.op = 0x2 ∧ t.cfg = { s.cfg with tmoatt := s.cmd.a }) ∨
       (s.cmd.op = 0x3 ∧ t.cfg = { s.cfg with pinsel := s.cmd.a }) ∨
       (s.cmd.op = 0x4 ∧ t.cfg = { s.cfg with portsel := s.cmd.a })))

/-- 10_state.md R16: the result registers and flags change only at a completion, which leaves the block in Idle with
the result waiting and comes from a command in execution or from one the step accepts, and at reset, which clears
them. -/
def Obligations.ResultsChangeOnlyAtCompletion : Prop :=
  ∀ s t : State, step s = .next t →
    t.res = s.res ∨
    (t.fsm = .idle ∧ t.resValid = true ∧
      (s.fsm ≠ .idle ∨ (s.cmdReady = true ∧ ∃ w rest, s.inputs = .command w :: rest))) ∨
    (∃ m rest, s.inputs = .rst m :: rest ∧ t.res = {})

/-- 20_memory.md R42, 70_reset_and_hazards.md R170: the link events performed only grow in number and none is undone;
the link trace holds those since the last reset, which begins it again empty. -/
def Obligations.TraceOnlyGrows : Prop :=
  ∀ s t : State, step s = .next t →
    (∃ new, t.past ++ t.trace = s.past ++ s.trace ++ new) ∧
    (t.past = s.past ∨ ∃ m rest, s.inputs = .rst m :: rest ∧ t.trace = [])

/-- 20_memory.md R31, R46: the block never writes IBUF; the host does, between commands, one byte at a time. -/
def Obligations.IbufChangesOnlyByHost : Prop :=
  ∀ s t : State, Memory.wf s.ibuf = true → step s = .next t →
    t.ibuf = s.ibuf ∨
    (∃ addr b rest, s.inputs = .writeIbuf addr b :: rest ∧ s.fsm = .idle ∧
      Memory.read t.ibuf addr.toNat = b ∧
      ∀ x, x ≠ addr.toNat → Memory.read t.ibuf x = Memory.read s.ibuf x)

/-- 00_scope.md R6: the parameters are fixed for the life of an instance. -/
def Obligations.ParametersNeverChange : Prop :=
  ∀ s t : State, step s = .next t → t.par = s.par

/-- 10_state.md R21: reset puts every register at the table's value, whatever the block was doing, and does not write
IBUF and OBUF (what of an interrupted transfer reached OBUF before it: ResetCutsTransferShort). -/
def Obligations.ResetLeavesTableValues : Prop :=
  ∀ (s : State) (m : Nat) (rest : List Input), s.inputs = .rst m :: rest →
    ∃ t, step s = .next t ∧ t.cfg = s.par.resetCfg ∧ t.fsm = .idle ∧
      t.cmd = { op := 0, blk := false, ako := false, a := 0, b := 0, n := 0 } ∧
      t.work = { pkts := 0, k := 0, attempts := 0, o := 0, bytesDone := 0, crc := 0 } ∧
      t.res = { val := 0, a := 0, b := 0, c := 0, fnd := false, tmo := false, ill := false } ∧
      t.resValid = false ∧ t.ibuf = s.ibuf ∧ t.trace = [] ∧ t.cmdReady = true ∧
      (s.fsm = .idle ∨ m = 0 → t.obuf = s.obuf)

/-- 30_encoding.md R50, 20_memory.md R31, R46: between commands the host's actions take effect: a taken result stops
waiting and keeps its values, a written IBUF or OBUF byte reads back, no other byte changes and nothing else does
(that the host writes OBUF at all is read from R46, log entry 4). The last two clauses are the model's choice (log
entries 7 and 12; R46 only forbids the host to write): while a command runs none of these actions takes effect, they
wait; and the spacing action does nothing of itself. -/
def Obligations.HostActsBetweenCommands : Prop :=
  (∀ (s : State) (rest : List Input), s.fsm = .idle → s.inputs = .takeResult :: rest →
    step s = .next { s with inputs := rest, resValid := false }) ∧
  (∀ (s : State) (addr : Addr9) (b : Byte) (rest : List Input),
    s.fsm = .idle → Memory.wf s.ibuf = true → s.inputs = .writeIbuf addr b :: rest →
    ∃ t, step s = .next t ∧ t = { s with inputs := rest, ibuf := t.ibuf } ∧
      Memory.read t.ibuf addr.toNat = b ∧
      ∀ x, x ≠ addr.toNat → Memory.read t.ibuf x = Memory.read s.ibuf x) ∧
  (∀ (s : State) (addr : Addr9) (b : Byte) (rest : List Input),
    s.fsm = .idle → Memory.wf s.obuf = true → s.inputs = .writeObuf addr b :: rest →
    ∃ t, step s = .next t ∧ t = { s with inputs := rest, obuf := t.obuf } ∧
      Memory.read t.obuf addr.toNat = b ∧
      ∀ x, x ≠ addr.toNat → Memory.read t.obuf x = Memory.read s.obuf x) ∧
  (∀ s : State, s.fsm ≠ .idle → s.quiet → ∃ t, step s = .next t ∧ t.inputs = s.inputs ∧ t.ibuf = s.ibuf) ∧
  (∀ (s : State) (rest : List Input), s.inputs = .wait :: rest →
    ∃ t, step { s with inputs := [] } = .next t ∧ step s = .next { t with inputs := rest })

/-! ### The invariant -/

/-- The invariant holds at State.reset (whose open values are the model's choice, log entries 1 to 7, 16, 20). -/
def Obligations.InvHoldsAtReset : Prop := State.reset.Inv

/-- Every step keeps the invariant: canonical memories, buffer lengths, a transfer short of its last request, the packet
in flight in TXF (10_state.md R19), the bounds of the packet index and of the receive count (R15, 20_memory.md R43),
nothing of the line kept by a block that does not listen (R42), and only a one-step command in Unit (10_state.md R14).
-/
def Obligations.StepKeepsInv : Prop :=
  ∀ s t : State, s.Inv → step s = .next t → t.Inv

/-- 20_memory.md R43: the largest OBUF index any command forms is at most 504: above it only a host's write, which the
block takes when idle, changes a byte. -/
def Obligations.ObufIndexAtMost504 : Prop :=
  ∀ s t : State, s.Inv → step s = .next t →
    (s.fsm = .idle → ∀ addr b rest, s.inputs ≠ .writeObuf addr b :: rest) →
    ∀ x, 504 < x → Memory.read t.obuf x = Memory.read s.obuf x

/-- 10_state.md R19 (a), 43_send.md R107: over the attempts of a packet TXF keeps its bytes. -/
def Obligations.RetransmissionKeepsFrame : Prop :=
  ∀ s t : State,
    (s.fsm = .awaitingAck ∨ s.fsm = .retrying ∨ (s.fsm = .sending ∧ s.prog.resend = true)) →
    s.quiet → step s = .next t → t.txf = s.txf

/-! ### The checksum -/

/-- 40_checksum.md R72 (f): flipping any one bit of any one byte changes the checksum. -/
def Obligations.CrcDetectsSingleBitFlip : Prop :=
  ∀ (pre post : List Byte) (b : Byte) (j : Nat), j < 8 →
    crc8 (pre ++ b :: post) ≠ crc8 (pre ++ (b ^^^ (1#8 <<< j)) :: post)

/-- R72 (h): a sequence followed by its own checksum has checksum zero. -/
def Obligations.CrcResidueIsZero : Prop :=
  ∀ bs : List Byte, crc8 (bs ++ [crc8 bs]) = 0

/-- R72 (i): one step is a bijection of the input byte for a fixed accumulator and of the accumulator for a fixed
input byte. -/
def Obligations.CrcStepIsBijective : Prop :=
  ∀ c : Byte, Function.Bijective (crc8Step c) ∧ Function.Bijective (fun x => crc8Step x c)

/-- R73: CRC returns the checksum of IBUF[0 .. n) and writes the result registers only. -/
def Obligations.CrcCommandResult : Prop :=
  ∀ (s : State) (n : Byte),
    let v := crc8 ((List.range n.toNat).map (Memory.read s.ibuf))
    exec (.crc n) s = .next { s with
      fsm := .idle, line := [], part := 0, resValid := true, res := { val := zext16 v }
      cmd := { s.cmd with op := 0x5, n := n }, work := { s.work with crc := v } }

/-! ### The codec -/

/-- 41_codec.md R83: (a) both encoders produce exactly FRAME_SIZE bytes with a valid trailing checksum; (b), (c)
decoding gives the fields back; (d) placed anywhere in a window a frame passes the checksum test at its own offset.
-/
def Obligations.EncodersProduceValidFrames : Prop :=
  ∀ (p : Nat) (d src e : Byte) (pl : List Byte), pl.length = p →
    ((encodeData d src pl).length = p + 4 ∧
     byteAt (encodeData d src pl) (p + 3) = crc8 ((encodeData d src pl).take (p + 3))) ∧
    ((encodeAck p d src e).length = p + 4 ∧
     byteAt (encodeAck p d src e) (p + 3) = crc8 ((encodeAck p d src e).take (p + 3))) ∧
    decodeFields p (encodeData d src pl) = { dest := d, src := src, kind := 0x01, payload := pl } ∧
    decodeFields p (encodeAck p d src e) =
      { dest := d, src := src, kind := 0x02, payload := List.replicate p e } ∧
    (∀ pre post, isCandidate p (pre ++ encodeData d src pl ++ post) pre.length = true ∧
      isCandidate p (pre ++ encodeAck p d src e ++ post) pre.length = true)

/-- R84: ENCD builds the Data frame of its operands and IBUF[0 .. P) in TXF, copies it to OBUF[0 .. F) and returns
its checksum byte; nothing else changes. -/
def Obligations.EncdStoresDataFrame : Prop :=
  ∀ (s : State) (a b : Byte), Memory.wf s.obuf = true →
    let frame := encodeData a b ((List.range s.payloadSize).map (Memory.read s.ibuf))
    let last := byteAt frame (s.frameSize - 1)
    ∃ t, exec (.encd a b) s = .next t ∧
      t = { s with
        fsm := .idle, line := [], part := 0, resValid := true, res := { val := zext16 last }, txf := frame, obuf := t.obuf
        cmd := { s.cmd with op := 0x6, a := a, b := b }, work := { s.work with crc := last } } ∧
      (∀ x, x < s.frameSize → Memory.read t.obuf x = byteAt frame x) ∧
      (∀ x, s.frameSize ≤ x → Memory.read t.obuf x = Memory.read s.obuf x)

/-- R85: ENCA builds the Ack frame of its operands in TXF, copies it to OBUF[0 .. F) and returns its checksum byte;
nothing else changes. That it writes OBUF is the model's choice (log entry 19): R85 says so, the ENCA cell of the table
of 20_memory.md R43 says that it writes none. -/
def Obligations.EncaStoresAckFrame : Prop :=
  ∀ (s : State) (a b n : Byte), Memory.wf s.obuf = true →
    let frame := encodeAck s.payloadSize a b n
    let last := byteAt frame (s.frameSize - 1)
    ∃ t, exec (.enca a b n) s = .next t ∧
      t = { s with
        fsm := .idle, line := [], part := 0, resValid := true, res := { val := zext16 last }, txf := frame, obuf := t.obuf
        cmd := { s.cmd with op := 0x7, a := a, b := b, n := n }, work := { s.work with crc := last } } ∧
      (∀ x, x < s.frameSize → Memory.read t.obuf x = byteAt frame x) ∧
      (∀ x, s.frameSize ≤ x → Memory.read t.obuf x = Memory.read s.obuf x)

/-- R86: DEC returns the header bytes of IBUF[0 .. F) unchecked and copies the payload to OBUF[0 .. P); nothing else
changes. -/
def Obligations.DecReturnsFields : Prop :=
  ∀ s : State, Memory.wf s.obuf = true →
    ∃ t, exec .dec s = .next t ∧
      t = { s with
        fsm := .idle, line := [], part := 0, resValid := true, obuf := t.obuf, cmd := { s.cmd with op := 0x8 }
        res := { a := Memory.read s.ibuf 0, b := Memory.read s.ibuf 1, c := Memory.read s.ibuf 2 } } ∧
      (∀ x, x < s.payloadSize → Memory.read t.obuf x = Memory.read s.ibuf (3 + x)) ∧
      (∀ x, s.payloadSize ≤ x → Memory.read t.obuf x = Memory.read s.obuf x)

/-! ### The synchronizer -/

/-- 42_sync.md R90 to R95: Sync returns the lowest offset 0 .. FRAME_SIZE whose bytes pass the checksum, destination
and kind tests of the mode, with the last payload byte as an Ack's echo, and None when no offset passes (that other
kinds are passed over is D13, the echo's index D12). -/
def Obligations.SyncFindsLowestOffset : Prop :=
  ∀ (p : Nat) (w : List Byte) (addr : Byte) (ako : Bool),
    let passes (o : Nat) : Prop :=
      crc8 (slice w o (p + 3)) = byteAt w (o + (p + 3)) ∧ byteAt w o = addr ∧
      byteAt w (o + 2) = if ako then 0x02 else 0x01
    let lowest (o : Nat) : Prop := o ≤ p + 4 ∧ passes o ∧ ∀ q, q < o → ¬ passes q
    (sync p w addr ako = .none ↔ ∀ o, o ≤ p + 4 → ¬ passes o) ∧
    (∀ o, sync p w addr ako = .data o ↔ ako = false ∧ lowest o) ∧
    (∀ o e, sync p w addr ako = .ack o e ↔ ako = true ∧ lowest o ∧ e = byteAt w (o + (3 + p - 1)))

/-- 70_reset_and_hazards.md R176, R97 (e): a window of zeros passes the checksum test at every offset and is matched
for no address in either mode. -/
def Obligations.ZeroWindowIsNeverMatched : Prop :=
  ∀ (p : Nat) (addr : Byte) (ako : Bool),
    (∀ o, o ≤ p + 4 → isCandidate p (List.replicate (2 * (p + 4)) 0) o = true) ∧
    sync p (List.replicate (2 * (p + 4)) 0) addr ako = .none

/-- R96: SYNC loads the window from IBUF[0 .. W), scans it for the operand address and reports offset, kind, source
and checksum or echo; only a Data match writes OBUF, at [0 .. P). -/
def Obligations.SyncCommandResult : Prop :=
  ∀ (s : State) (a : Byte) (ako : Bool), Memory.wf s.obuf = true →
    let w := (List.range s.windowSize).map (Memory.read s.ibuf)
    ∃ t, exec (.sync a ako) s = .next t ∧
      t = { s with
        fsm := .idle, line := [], part := 0, resValid := true, res := t.res, obuf := t.obuf, win := w
        cmd := { s.cmd with op := 0x9, a := a, ako := ako }
        work := { s.work with o := t.work.o, crc := t.work.crc } } ∧
      (sync s.payloadSize w a ako = .none → t.res = {} ∧ t.obuf = s.obuf) ∧
      (∀ o, sync s.payloadSize w a ako = .data o →
        t.res = { val := BitVec.ofNat 16 o, a := 0x01, b := byteAt w (o + 1),
                  c := byteAt w (o + s.frameSize - 1), fnd := true } ∧
        (∀ x, x < s.payloadSize → Memory.read t.obuf x = byteAt w (o + 3 + x)) ∧
        (∀ x, s.payloadSize ≤ x → Memory.read t.obuf x = Memory.read s.obuf x)) ∧
      (∀ o e, sync s.payloadSize w a ako = .ack o e →
        t.res = { val := BitVec.ofNat 16 o, a := 0x02, b := byteAt w (o + 1), c := e, fnd := true } ∧
        t.obuf = s.obuf)

/-- 70_reset_and_hazards.md R172: CRC, ENCD, ENCA, DEC and SYNC read no configuration register: on another
configuration they do the same and leave that one. -/
def Obligations.LeafCommandsReadNoConfig : Prop :=
  ∀ (s : State) (cfg : NodeConfig) (a b n : Byte) (ako : Bool) (i : Instr),
    i ∈ [.crc n, .encd a b, .enca a b n, .dec, .sync a ako] →
    ∃ t, exec i s = .next t ∧ t.cfg = s.cfg ∧ exec i { s with cfg := cfg } = .next { t with cfg := cfg }

/-! ### Configuration and reserved opcodes -/

/-- 45_config.md R140 to R143: each setter writes its own register and the result registers, which become 0; nothing
else changes. -/
def Obligations.SettersWriteTheirRegister : Prop :=
  ∀ (s : State) (a : Byte),
    exec (.setaddr a) s = .next { s with
      cfg := { s.cfg with myaddr := a }, cmd := { s.cmd with op := 0x1, a := a }
      fsm := .idle, line := [], part := 0, resValid := true, res := {} } ∧
    exec (.settmo a) s = .next { s with
      cfg := { s.cfg with tmoatt := a }, cmd := { s.cmd with op := 0x2, a := a }
      fsm := .idle, line := [], part := 0, resValid := true, res := {} } ∧
    exec (.setpin a) s = .next { s with
      cfg := { s.cfg with pinsel := a }, cmd := { s.cmd with op := 0x3, a := a }
      fsm := .idle, line := [], part := 0, resValid := true, res := {} } ∧
    exec (.setport a) s = .next { s with
      cfg := { s.cfg with portsel := a }, cmd := { s.cmd with op := 0x4, a := a }
      fsm := .idle, line := [], part := 0, resValid := true, res := {} }

/-- 30_encoding.md R54: a word with a reserved opcode is accepted like any other and completes at once with ILL = 1 and
every other result 0; no configuration register, buffer, memory or trace changes; and this is the only way ILL
becomes 1. The model's choice, not R54's: where the next action can land in a running command the word only begins its
command (log entry 10), which then completes from Unit (10_state.md R14) in a later step: the third clause, and the
second alternative of the last. -/
def Obligations.ReservedOpcodesOnlySetIll : Prop :=
  (∀ s : State,
    exec .reserved0 s = .next { s with
      cmd := { s.cmd with op := 0x0 }, fsm := .idle, line := [], part := 0, resValid := true, res := { ill := true } } ∧
    exec .reservedD s = .next { s with
      cmd := { s.cmd with op := 0xD }, fsm := .idle, line := [], part := 0, resValid := true, res := { ill := true } } ∧
    exec .reservedE s = .next { s with
      cmd := { s.cmd with op := 0xE }, fsm := .idle, line := [], part := 0, resValid := true, res := { ill := true } } ∧
    exec .reservedF s = .next { s with
      cmd := { s.cmd with op := 0xF }, fsm := .idle, line := [], part := 0, resValid := true, res := { ill := true } }) ∧
  (∀ (s : State) (w : CmdWord) (rest : List Input),
    s.inputs = .command w :: rest → { s with inputs := rest }.quiet = true → s.cmdReady = true →
    (fieldOp w).toNat ∈ [0x0, 0xD, 0xE, 0xF] →
    step s = .next { s with
      inputs := rest, fsm := .idle, line := [], part := 0, resValid := true, res := { ill := true }
      cmd := { op := fieldOp w, blk := fieldBlk w, ako := fieldAko w,
               a := fieldA w, b := fieldB w, n := fieldN w } }) ∧
  (∀ s : State, s.fsm = .unit → s.quiet → s.cmd.op.toNat ∈ [0x0, 0xD, 0xE, 0xF] →
    step s = .next { s with fsm := .idle, line := [], part := 0, resValid := true, res := { ill := true } }) ∧
  (∀ s t : State, step s = .next t → s.res.ill = false → t.res.ill = true →
    (∃ w rest, s.inputs = .command w :: rest ∧ s.cmdReady = true ∧ (fieldOp w).toNat ∈ [0x0, 0xD, 0xE, 0xF]) ∨
    (s.fsm = .unit ∧ s.cmd.op.toNat ∈ [0x0, 0xD, 0xE, 0xF]))

/-! ### The link and the frame rows -/

/-- 20_memory.md R41: `Capture()` overwrites all of WIN with the next WINDOW_SIZE bytes of the link, the first one
received in WIN[0], and appends their RX events (that bytes heard on the line come before the oracle's is the model's
form, log entry 6). One that the link has stalled goes on at the byte it has come to (log entry 20). -/
def Obligations.CaptureTakesNextWindow : Prop :=
  ∀ s : State, s.win.length = s.windowSize → s.part ≤ s.windowSize →
    let bytes := s.linkBytes (s.windowSize - s.part)
    s.capture.win.length = s.windowSize ∧
    s.capture = { s with
      win := s.win.take s.part ++ bytes
      line := s.line.drop (s.windowSize - s.part), rx := s.rx.drop (s.windowSize - s.part - s.line.length)
      draws := s.draws + (s.windowSize - s.part - (s.line.length + s.rx.length))
      trace := s.trace ++ bytes.map .rx }

/-- 20_memory.md R40: `Transmit(TXF)` appends one TX event for each byte of TXF in ascending index, and changes
nothing else. The second clause is the model's choice (log entry 20, after R37): a `Transmit` that waits on the link has
its place in `part`, and goes on at the byte it has come to. -/
def Obligations.TransmitSendsTxfInOrder : Prop :=
  ∀ s : State, s.txf.length = s.frameSize →
    (s.part = 0 →
      s.transmit = { s with trace := s.trace ++ (List.range s.frameSize).map fun i => .tx (byteAt s.txf i) }) ∧
    s.transmit = { s with
      trace := s.trace ++ (List.range (s.frameSize - s.part)).map fun i => .tx (byteAt s.txf (s.part + i)) }

/-- 30_encoding.md R55, R56, 20_memory.md R42: a frame's bytes pass on the line, destination first and checksum last: a
block at a capture hears them after those it has heard, any other block never captures them and nothing changes (how
the line reaches the block is the model's choice, log entry 11). -/
def Obligations.FrameRowsFeedTheLink : Prop :=
  ∀ (s : State) (d src c : Byte) (pl : List Byte),
    let heard (frame : List Byte) : State :=
      if s.fsm = .awaitingAck ∨ s.fsm = .receiving then { s with line := s.line ++ frame } else s
    exec (.frameData d src pl c) s = .next (heard ([d, src, 0x01] ++ pl ++ [c])) ∧
    exec (.frameAck d src pl c) s = .next (heard ([d, src, 0x02] ++ pl ++ [c]))

/-- 42_sync.md R90, R94 (d), 44_recv.md R124, R125: a valid Data frame for this node that passes on the line while a
one-packet non-blocking RECV is at its capture is delivered, and acknowledged to its source with its own checksum. The
steps: the command begins, the frame is heard, the pass, the reply (log entries 7, 10 and 11), the link answering every
request (R188). -/
def Obligations.FrameOnLineIsDelivered : Prop :=
  ∀ (s : State) (w : CmdWord) (src : Byte) (pl : List Byte) (rest : List Input),
    fieldOp w = 0xB → fieldBlk w = false → fieldAko w = false →
    1 ≤ (fieldN w).toNat → (fieldN w).toNat ≤ s.payloadSize →
    pl.length = s.payloadSize → Memory.wf s.obuf = true → s.cmdReady = true → s.silent = false →
    let c := crc8 ([s.cfg.myaddr, src, 0x01] ++ pl)
    let frame := [s.cfg.myaddr, src, 0x01] ++ pl ++ [c]
    s.inputs = .command w :: .line frame :: .wait :: .wait :: rest →
    ∃ begun heard matched done : State,
      step s = .next begun ∧ begun.fsm = .receiving ∧
      step begun = .next heard ∧ step heard = .next matched ∧ matched.fsm = .replying ∧ step matched = .next done ∧
      done.fsm = .idle ∧ done.resValid = true ∧ done.inputs = rest ∧
      done.res = { val := BitVec.ofNat 16 s.payloadSize, a := 0x01, b := src, c := c, fnd := true } ∧
      (∀ x, x < s.payloadSize → Memory.read done.obuf x = byteAt pl x) ∧
      (∀ x, s.payloadSize ≤ x → Memory.read done.obuf x = Memory.read s.obuf x) ∧
      ∃ window : List Byte, window.length = s.windowSize ∧ window.take s.frameSize = frame ∧
        done.trace = s.trace ++ window.map .rx ++ (encodeAck s.payloadSize src s.cfg.myaddr c).map .tx

/-! ### SEND -/

/-- 43_send.md R112 (a): an empty message completes at once with result 0, in both modes, and no frame is built. -/
def Obligations.SendOfNothingCompletes : Prop :=
  ∀ (s : State) (a : Byte) (blk : Bool),
    exec (.send a 0 blk) s = .next { s with
      fsm := .idle, line := [], part := 0, resValid := true, res := {}, work := { s.work with pkts := 0 }
      cmd := { s.cmd with op := 0xA, a := a, n := 0, blk := blk } }

/-- R101 to R103, R108, R109: a non-blocking SEND always completes with RES_VAL = size: it transmits the padded Data
frame of every packet in order, each followed by the settle delay, and captures nothing. (Here and below: where the
link answers, 70_reset_and_hazards.md R188; where it does not, SilentLinkStallsCommand.) -/
def Obligations.NonBlockingSendTransmitsAll : Prop :=
  ∀ (s : State) (a n : Byte), s.silent = false →
    ∃ t, exec (.send a n false) s = .next t ∧
      t = { s with
        fsm := .idle, line := [], part := 0, resValid := true, res := { val := zext16 n }, txf := t.txf, trace := t.trace
        cmd := { s.cmd with op := 0xA, a := a, n := n, blk := false }
        work := { s.work with pkts := t.work.pkts, k := t.work.k, crc := t.work.crc }
        prog := { s.prog with resend := t.prog.resend } } ∧
      t.trace = s.trace ++ (List.range (packetCount n.toNat s.payloadSize)).flatMap fun k =>
        (s.packetFrame a n.toNat k).map .tx ++ [.delay s.par.settleUnits]

/-- R101: the packet count is the exact ceil(size / P): the least q with q * P >= size. -/
def Obligations.PacketCountIsCeiling : Prop :=
  ∀ size p : Nat, 1 ≤ p →
    size ≤ packetCount size p * p ∧ ∀ q, size ≤ q * p → packetCount size p ≤ q

/-- R102: a payload byte of packet k is the message byte at k * P + i, or 0x00 at and beyond the message's end; bytes
of IBUF from `size` on play no part. -/
def Obligations.ChunkIsZeroPadded : Prop :=
  ∀ (s : State) (size k : Nat), size ≤ 255 →
    (s.chunk size k).length = s.payloadSize ∧
    (∀ i, i < s.payloadSize → byteAt (s.chunk size k) i =
      if k * s.payloadSize + i < size then Memory.read s.ibuf (k * s.payloadSize + i) else 0x00) ∧
    (∀ m : Memory, (∀ x, x < size → Memory.read m x = Memory.read s.ibuf x) →
      { s with ibuf := m }.chunk size k = s.chunk size k)

/-- R105, R107, R109, R111: a one-packet blocking SEND whose first `m` windows hold no matching Ack and whose next one
does completes with RES_VAL = size, for every `m` up to TMOATT + 1, and for every `m` when TMOATT is 0xFF (R181):
`m + 1` transmissions of the same frame and `m + 1` captures, one settle delay, `m` retry delays. -/
def Obligations.SendSurvivesLostAcks : Prop :=
  ∀ (s : State) (a n : Byte) (m : Nat),
    s.silent = false → 1 ≤ n.toNat → n.toNat ≤ s.payloadSize →
    (m + 1) * s.windowSize ≤ s.rx.length →
    (m ≤ s.cfg.tmoatt.toNat + 1 ∨ s.cfg.tmoatt = 0xFF) →
    let frame := s.packetFrame a n.toNat 0
    (∀ j, j < m → s.windowAcks frame (s.listedWindow j) = false) →
    s.windowAcks frame (s.listedWindow m) = true →
    ∃ t, exec (.send a n true) s = .next t ∧ t.fsm = .idle ∧ t.resValid = true ∧
      t.res = { val := zext16 n } ∧ t.txf = frame ∧ t.rx = s.rx.drop ((m + 1) * s.windowSize) ∧
      t.trace = s.trace ++ frame.map .tx ++ [.delay s.par.settleUnits] ++
        ((List.range m).flatMap fun j =>
          (s.listedWindow j).map .rx ++ [.delay s.par.retryUnits] ++ frame.map .tx) ++
        (s.listedWindow m).map .rx

/-- R106, R111: a blocking SEND whose first TMOATT + 2 windows hold no matching Ack times out on packet 0, for every
budget below 0xFF: RES_VAL = 0, TMO = 1, TMOATT + 2 transmissions and captures, one settle delay, TMOATT + 1 retry
delays, attempts = TMOATT + 1. -/
def Obligations.SendTimesOutAfterBudget : Prop :=
  ∀ (s : State) (a n : Byte),
    s.silent = false → 1 ≤ n.toNat → s.cfg.tmoatt ≠ 0xFF →
    (s.cfg.tmoatt.toNat + 2) * s.windowSize ≤ s.rx.length →
    let frame := s.packetFrame a n.toNat 0
    (∀ j, j < s.cfg.tmoatt.toNat + 2 → s.windowAcks frame (s.listedWindow j) = false) →
    ∃ t, exec (.send a n true) s = .next t ∧ t.fsm = .idle ∧ t.resValid = true ∧
      t.res = { val := 0, tmo := true } ∧ t.txf = frame ∧
      t.work.attempts.toNat = s.cfg.tmoatt.toNat + 1 ∧
      t.trace = s.trace ++ frame.map .tx ++ [.delay s.par.settleUnits] ++
        ((List.range (s.cfg.tmoatt.toNat + 1)).flatMap fun j =>
          (s.listedWindow j).map .rx ++ [.delay s.par.retryUnits] ++ frame.map .tx) ++
        (s.listedWindow (s.cfg.tmoatt.toNat + 1)).map .rx

/-- R110: the control transfers of SEND from every state but Idle, one a step: new control state, link events, packet
index, attempts, frame and result, and that nothing else changes (o and crc, which no rule reads, apart). A transfer
the link has stalled makes the rest of its requests (log entry 20); while it is stalled, SilentLinkStallsCommand. -/
def Obligations.SendControlTransfers : Prop :=
  ∀ s : State, s.cmd.op = 0xA → s.quiet → s.stalled = false →
    let tx : List LinkEvent := (s.txf.drop s.part).map .tx
    let bytes := s.linkBytes (s.windowSize - s.part)
    let window := s.win.take s.part ++ bytes
    let next (u t : State) : Prop :=
      (s.work.k.toNat + 1 < s.work.pkts.toNat →
        t = { u with
          fsm := .sending, line := [], part := 0, txf := s.packetFrame s.cmd.a s.cmd.n.toNat (s.work.k.toNat + 1)
          prog := { u.prog with resend := false }, work := { u.work with k := s.work.k + 1, crc := t.work.crc } }) ∧
      (s.work.pkts.toNat ≤ s.work.k.toNat + 1 →
        t = { u with fsm := .idle, line := [], part := 0, resValid := true, res := { val := zext16 s.cmd.n } })
    (s.fsm = .sending → s.prog.resend = true →
      step s = .next { s with
        fsm := .awaitingAck, part := 0, trace := s.trace ++ tx
        work := { s.work with attempts := s.work.attempts + 1 } }) ∧
    (s.fsm = .sending → s.prog.resend = false → s.cmd.blk = true →
      step s = .next { s with
        fsm := .awaitingAck, part := 0, trace := s.trace ++ tx ++ [.delay s.par.settleUnits]
        work := { s.work with attempts := 0 } }) ∧
    (s.fsm = .sending → s.prog.resend = false → s.cmd.blk = false →
      ∃ t, step s = .next t ∧ next { s with trace := s.trace ++ tx ++ [.delay s.par.settleUnits] } t) ∧
    (s.fsm = .awaitingAck →
      ∃ t, step s = .next t ∧
        t = { s with
          win := window, line := [], part := 0, rx := s.rx.drop (s.windowSize - s.part - s.line.length)
          draws := t.draws, trace := s.trace ++ bytes.map .rx
          work := { s.work with o := t.work.o, crc := t.work.crc }, fsm := t.fsm } ∧
        t.fsm = if s.windowAcks s.txf window then .acked
                else if s.cfg.tmoatt.toNat < s.work.attempts.toNat then .timedOut else .retrying) ∧
    (s.fsm = .retrying →
      step s = .next { s with
        fsm := .sending, line := [], part := 0, trace := s.trace ++ [.delay s.par.retryUnits]
        prog := { s.prog with resend := true } }) ∧
    (s.fsm = .acked → ∃ t, step s = .next t ∧ next s t) ∧
    (s.fsm = .timedOut →
      let count := (if s.work.k.toNat = 0 then 0 else s.work.k.toNat - 1) * s.payloadSize
      step s = .next { s with
        fsm := .idle, line := [], part := 0, resValid := true, res := { val := BitVec.ofNat 16 count, tmo := true } })

/-- 60_exceptions.md R157, R106: at a delivery timeout exactly the result registers, the control state and res_valid
change; the count is (k = 0 ? 0 : k - 1) * P, below the message's size. -/
def Obligations.TimeoutReportsPartialCount : Prop :=
  ∀ s : State, s.Inv → s.fsm = .timedOut → s.quiet →
    let count := (if s.work.k.toNat = 0 then 0 else s.work.k.toNat - 1) * s.payloadSize
    step s = .next { s with
      fsm := .idle, line := [], part := 0, resValid := true, res := { val := BitVec.ofNat 16 count, tmo := true } } ∧
    (BitVec.ofNat 16 count).toNat = count ∧ count < s.cmd.n.toNat

/-- 43_send.md R100: what every SEND, of either mode and however far it runs, leaves unchanged: the configuration, both
memories, the parameters, the coming inputs, the latches and registers it does not use. -/
def Obligations.SendFrame : Prop :=
  ∀ (s t : State) (a n : Byte) (blk : Bool), exec (.send a n blk) s = .next t →
    t = { s with
      fsm := t.fsm, res := t.res, resValid := t.resValid, txf := t.txf, win := t.win, trace := t.trace
      part := 0, line := t.line, rx := t.rx, draws := t.draws
      cmd := { s.cmd with op := 0xA, a := a, n := n, blk := blk }
      work := { t.work with bytesDone := s.work.bytesDone }, prog := { s.prog with resend := t.prog.resend } } ∧
    (t.fsm = .idle → t.res.fnd = false ∧ t.res.ill = false)

/-! ### RECV and RECVACK -/

/-- 44_recv.md R130 (a): with size 0 RECV completes at once with every result 0, in every mode, with no link event. -/
def Obligations.RecvOfNothingCompletes : Prop :=
  ∀ (s : State) (blk ako : Bool),
    exec (.recv 0 blk ako) s = .next { s with
      fsm := .idle, line := [], part := 0, resValid := true, res := {}
      cmd := { s.cmd with op := 0xB, n := 0, blk := blk, ako := ako }
      work := { s.work with pkts := 0, bytesDone := 0, k := 0 }
      prog := { s.prog with fnd := false, la := 0, lb := 0, lc := 0 } }

/-- R123 to R125, R128: a one-packet non-blocking RECV whose window holds a Data frame appends its payload, transmits
exactly one Ack echoing its checksum to its source, and reports it. -/
def Obligations.RecvDeliversAndAcknowledges : Prop :=
  ∀ (s : State) (n : Byte) (o : Nat),
    s.silent = false → 1 ≤ n.toNat → n.toNat ≤ s.payloadSize → Memory.wf s.obuf = true →
    let w := s.oracleWindow
    let ack := encodeAck s.payloadSize (byteAt w (o + 1)) s.cfg.myaddr (byteAt w (o + s.frameSize - 1))
    sync s.payloadSize w s.cfg.myaddr false = .data o →
    ∃ t, exec (.recv n false false) s = .next t ∧
      t = { s with
        fsm := .idle, line := [], part := 0, resValid := true, win := w, txf := ack, obuf := t.obuf, rx := t.rx
        draws := t.draws, trace := s.trace ++ w.map .rx ++ ack.map .tx
        res := { val := BitVec.ofNat 16 s.payloadSize, a := 0x01, b := byteAt w (o + 1),
                 c := byteAt w (o + s.frameSize - 1), fnd := true }
        cmd := { s.cmd with op := 0xB, n := n, blk := false, ako := false }
        work := { t.work with attempts := s.work.attempts }, prog := { t.prog with resend := s.prog.resend } } ∧
      (∀ x, x < s.payloadSize → Memory.read t.obuf x = byteAt w (o + 3 + x)) ∧
      (∀ x, s.payloadSize ≤ x → Memory.read t.obuf x = Memory.read s.obuf x)

/-- R123, R126, R130 (d): a one-packet non-blocking RECV whose window holds no frame for it makes one capture and
completes with every result 0: OBUF and TXF keep their bytes and nothing is transmitted. -/
def Obligations.RecvMissLeavesNoTrace : Prop :=
  ∀ (s : State) (n : Byte) (ako : Bool),
    s.silent = false → 1 ≤ n.toNat → n.toNat ≤ s.payloadSize →
    sync s.payloadSize s.oracleWindow s.cfg.myaddr ako = .none →
    ∃ t, exec (.recv n false ako) s = .next t ∧
      t = { s with
        fsm := .idle, line := [], part := 0, resValid := true, res := {}, win := s.oracleWindow, rx := t.rx
        draws := t.draws
        trace := s.trace ++ s.oracleWindow.map .rx
        cmd := { s.cmd with op := 0xB, n := n, blk := false, ako := ako }
        work := { t.work with attempts := s.work.attempts }, prog := { t.prog with resend := s.prog.resend } }

/-- R123, R128, R129 (the non-blocking loop is the spec's decision D17): where the link answers a non-blocking RECV always
completes, in every mode; TMO and ILL are 0, and in payload mode the count is a multiple of P of at most pkts * P, nonzero
exactly when a frame was found. -/
def Obligations.NonBlockingRecvAlwaysEnds : Prop :=
  ∀ (s : State) (n : Byte) (ako : Bool), s.silent = false →
    ∃ t, exec (.recv n false ako) s = .next t ∧ t.fsm = .idle ∧ t.resValid = true ∧
      t.res.tmo = false ∧ t.res.ill = false ∧
      (ako = false →
        t.res.val.toNat % s.payloadSize = 0 ∧
        t.res.val.toNat ≤ packetCount n.toNat s.payloadSize * s.payloadSize ∧
        (t.res.fnd = true ↔ t.res.val.toNat ≠ 0))

/-- R122, R124, R125, R128: a blocking RECV captures window after window, whether or not it holds a Data frame for this
node, until pkts of them have (`found j` is the frame's offset in window j, if any). It completes after exactly those
windows, having transmitted nothing, with RES_VAL = pkts * P, the payloads one after the other in OBUF[0 .. pkts * P)
and FND, RES_A, RES_B, RES_C of the last match. -/
def Obligations.BlockingRecvCollectsPackets : Prop :=
  ∀ (s : State) (n : Byte) (found : Nat → Option Nat) (m : Nat), s.silent = false → Memory.wf s.obuf = true →
    let pkts := packetCount n.toNat s.payloadSize
    m * s.windowSize ≤ s.rx.length →
    (∀ j, j < m → sync s.payloadSize (s.listedWindow j) s.cfg.myaddr false = dataAt (found j)) →
    (∀ j, j < m → matchesBefore found j < pkts) → matchesBefore found m = pkts →
    ∃ t, exec (.recv n true false) s = .next t ∧ t.fsm = .idle ∧ t.resValid = true ∧
      t.res.val.toNat = pkts * s.payloadSize ∧ t.res.tmo = false ∧ t.res.ill = false ∧ t.txf = s.txf ∧
      t.rx = s.rx.drop (m * s.windowSize) ∧
      t.trace = s.trace ++ (List.range m).flatMap (fun j => (s.listedWindow j).map .rx) ∧
      (∀ j o, j < m → found j = some o → ∀ i, i < s.payloadSize →
        Memory.read t.obuf (matchesBefore found j * s.payloadSize + i) = byteAt (s.listedWindow j) (o + 3 + i)) ∧
      (∀ x, pkts * s.payloadSize ≤ x → Memory.read t.obuf x = Memory.read s.obuf x) ∧
      (∀ j o, j < m → found j = some o → matchesBefore found j + 1 = pkts →
        t.res.fnd = true ∧ t.res.a = 0x01 ∧ t.res.b = byteAt (s.listedWindow j) (o + 1) ∧
        t.res.c = byteAt (s.listedWindow j) (o + s.frameSize - 1)) ∧
      (pkts = 0 → t.res = {})

/-- R122, R125, R128: a blocking payload-mode RECV that has completed has appended exactly pkts * P bytes and has
transmitted nothing; one that has not has transmitted nothing either. -/
def Obligations.BlockingRecvNeverTransmits : Prop :=
  ∀ (s t : State) (n : Byte) (ako : Bool), exec (.recv n true ako) s = .next t →
    t.txf = s.txf ∧ (∃ new, t.trace = s.trace ++ new ∧ ∀ b, LinkEvent.tx b ∉ new) ∧
    (t.fsm = .idle → ako = false →
      t.res.val.toNat = packetCount n.toNat s.payloadSize * s.payloadSize)

/-- R126, R127: an Ack-only RECV of size 1 or more, and RECVACK, whose window holds an Ack for this node complete with
the echo as the result, OBUF and TXF unchanged and nothing transmitted. -/
def Obligations.AckOnlyReceiveReturnsEcho : Prop :=
  ∀ (s : State) (i : Instr) (n : Byte) (blk : Bool) (o : Nat) (e : Byte),
    (i = .recv n blk true ∧ 1 ≤ n.toNat) ∨ i = .recvack →
    s.silent = false → s.rx ≠ [] →
    let w := s.oracleWindow
    sync s.payloadSize w s.cfg.myaddr true = .ack o e →
    ∃ t, exec i s = .next t ∧
      t = { s with
        fsm := .idle, line := [], part := 0, resValid := true, win := w, rx := t.rx, draws := t.draws, cmd := t.cmd
        trace := s.trace ++ w.map .rx
        res := { val := zext16 e, a := 0x02, b := byteAt w (o + 1), c := e, fnd := true }
        work := { t.work with attempts := s.work.attempts }, prog := { t.prog with resend := s.prog.resend } }

/-- R127: RECVACK behaves in every respect as `RECV n=PAYLOAD_SIZE blk=1 ako=1`: the states reached differ in nothing
but the latches of the command word, at once and, where the command goes on, in every later step. -/
def Obligations.RecvackIsAckOnlyRecv : Prop :=
  (∀ s : State, ∃ t u, exec .recvack s = .next t ∧
    exec (.recv (BitVec.ofNat 8 s.payloadSize) true true) s = .next u ∧ { t with cmd := u.cmd } = u) ∧
  (∀ s : State, s.Inv → s.fsm.recvSide → s.cmd.op = 0xC →
    ∃ t u, step s = .next t ∧
      step { s with
        cmd := { s.cmd with op := 0xB, n := BitVec.ofNat 8 s.payloadSize, blk := true, ako := true } } = .next u ∧
      { t with cmd := u.cmd } = u)

/-- 44_recv.md R120, 20_memory.md R43: what every RECV and RECVACK, of any mode and however far it runs, leaves
unchanged: the configuration, IBUF, the parameters, the coming inputs, TMOATT's counter, and every byte of OBUF outside
[0 .. bytes_done). In Ack-only mode OBUF and TXF are unchanged. -/
def Obligations.RecvFrame : Prop :=
  ∀ (s t : State) (i : Instr) (n : Byte) (blk ako : Bool),
    (i = .recv n blk ako ∨ (i = .recvack ∧ ako = true)) → Memory.wf s.obuf = true → exec i s = .next t →
    t = { s with
      fsm := t.fsm, res := t.res, resValid := t.resValid, txf := t.txf, win := t.win, obuf := t.obuf
      trace := t.trace, part := 0, line := t.line, rx := t.rx, draws := t.draws
      cmd := { t.cmd with a := s.cmd.a, b := s.cmd.b }
      work := { t.work with attempts := s.work.attempts }, prog := { t.prog with resend := s.prog.resend } } ∧
    (ako = true → t.obuf = s.obuf ∧ t.txf = s.txf) ∧
    (∀ x, t.work.bytesDone.toNat ≤ x → Memory.read t.obuf x = Memory.read s.obuf x)

/-! ### Ending -/

/-- 44_recv.md R129, 70_reset_and_hazards.md R186, 93_implementation_defined.md U9: a SEND, RECV or RECVACK either
completes, or waits on a link that does not answer, or stands at a capture with no byte heard or listed left, and only a
blocking one does that (where a step ends inside a command is the model's choice, log entry 10). -/
def Obligations.CommandCompletesOrAwaitsLink : Prop :=
  ∀ (s t : State) (i : Instr) (a n : Byte) (blk ako : Bool),
    ((i = .send a n blk) ∨ (i = .recv n blk ako) ∨ (i = .recvack ∧ blk = true)) → exec i s = .next t →
    (t.fsm = .idle ∧ t.resValid = true) ∨
    (s.silent = true ∧ t.stalled = true) ∨
    (blk = true ∧ t.line = [] ∧ t.rx = [] ∧ (t.fsm = .awaitingAck ∨ t.fsm = .receiving))

/-! ### RECV step by step, and over several packets -/

/-- R120 to R128: the control transfers of RECV and RECVACK, one a step. From Receiving: one capture and one scan. No
match leaves only the capture; a Data match appends the payload at `bytes_done` and notes the frame, and a non-blocking
command replies to it (Replying, the Ack in TXF); an Ack match completes with the echo. From Replying: the Ack goes
out. Then the head of the loop: completion, or the next capture. Nothing else changes (o and crc, which no rule reads,
apart). A transfer the link has stalled makes the rest of its requests (log entry 20). -/
def Obligations.RecvControlTransfers : Prop :=
  ∀ s : State, s.Inv → s.fsm.recvSide → s.quiet → s.stalled = false →
    let bytes := s.linkBytes (s.windowSize - s.part)
    let w := s.win.take s.part ++ bytes
    let captured (t : State) : State := { s with
      win := w, line := s.line.drop (s.windowSize - s.part)
      rx := s.rx.drop (s.windowSize - s.part - s.line.length), draws := t.draws
      trace := s.trace ++ bytes.map .rx, work := { s.work with o := t.work.o, crc := t.work.crc } }
    let counted (u : State) : State :=
      if u.opBlk then u else { u with work := { u.work with k := u.work.k + 1 } }
    let head (u t : State) : Prop :=
      if (if u.opBlk then u.opSize ≤ u.work.bytesDone.toNat else u.work.pkts.toNat ≤ u.work.k.toNat) then
        t = { u with
          fsm := .idle, line := [], part := 0, resValid := true
          res := { val := u.work.bytesDone, a := u.prog.la, b := u.prog.lb, c := u.prog.lc, fnd := u.prog.fnd } }
      else t = { u with fsm := .receiving, part := 0 }
    ∃ t, step s = .next t ∧
      (s.fsm = .receiving → sync s.payloadSize w s.cfg.myaddr s.opAko = .none → head (counted (captured t)) t) ∧
      (∀ o e, s.fsm = .receiving → sync s.payloadSize w s.cfg.myaddr s.opAko = .ack o e →
        t = { captured t with
          fsm := .idle, line := [], part := 0, resValid := true
          res := { val := zext16 e, a := 0x02, b := byteAt w (o + 1), c := e, fnd := true } }) ∧
      (∀ o, s.fsm = .receiving → sync s.payloadSize w s.cfg.myaddr s.opAko = .data o →
        let src := byteAt w (o + 1)
        let sum := byteAt w (o + s.frameSize - 1)
        let appended : State := { captured t with
          obuf := t.obuf
          work := { (captured t).work with bytesDone := s.work.bytesDone + BitVec.ofNat 16 s.payloadSize }
          prog := { s.prog with fnd := true, la := 0x01, lb := src, lc := sum } }
        (∀ i, i < s.payloadSize → Memory.read t.obuf (s.work.bytesDone.toNat + i) = byteAt w (o + 3 + i)) ∧
        (∀ x, x < s.work.bytesDone.toNat ∨ s.work.bytesDone.toNat + s.payloadSize ≤ x →
          Memory.read t.obuf x = Memory.read s.obuf x) ∧
        (s.opBlk = true → head appended t) ∧
        (s.opBlk = false →
          t = { appended with
            fsm := .replying, line := [], part := 0, txf := encodeAck s.payloadSize src s.cfg.myaddr sum })) ∧
      (s.fsm = .replying →
        head { s with trace := s.trace ++ (s.txf.drop s.part).map .tx, work := { s.work with k := s.work.k + 1 } } t)

/-- R123, R124, R125, R128: a non-blocking payload-mode RECV of pkts packets captures the link's next pkts windows
(`found j` is the offset of a Data frame for this node in window j, if any). Each match is appended behind the ones
before it and answered at once by its own Ack, to its source with its checksum; a window without one is passed over.
The result is the number of bytes appended and the last match. -/
def Obligations.NonBlockingRecvAcknowledgesEveryMatch : Prop :=
  ∀ (s : State) (n : Byte) (found : Nat → Option Nat), s.silent = false → Memory.wf s.obuf = true →
    let pkts := packetCount n.toNat s.payloadSize
    let w := s.listedWindow
    let ack (j o : Nat) : List LinkEvent :=
      (encodeAck s.payloadSize (byteAt (w j) (o + 1)) s.cfg.myaddr (byteAt (w j) (o + s.frameSize - 1))).map .tx
    pkts * s.windowSize ≤ s.rx.length →
    (∀ j, j < pkts → sync s.payloadSize (w j) s.cfg.myaddr false = dataAt (found j)) →
    ∃ t, exec (.recv n false false) s = .next t ∧ t.fsm = .idle ∧ t.resValid = true ∧
      t.res.val.toNat = matchesBefore found pkts * s.payloadSize ∧ t.res.tmo = false ∧ t.res.ill = false ∧
      t.rx = s.rx.drop (pkts * s.windowSize) ∧
      t.trace = s.trace ++ (List.range pkts).flatMap (fun j => (w j).map .rx ++ (found j).elim [] (ack j)) ∧
      (∀ j o, j < pkts → found j = some o → ∀ i, i < s.payloadSize →
        Memory.read t.obuf (matchesBefore found j * s.payloadSize + i) = byteAt (w j) (o + 3 + i)) ∧
      (∀ x, matchesBefore found pkts * s.payloadSize ≤ x → Memory.read t.obuf x = Memory.read s.obuf x) ∧
      (∀ j o, j < pkts → found j = some o → matchesBefore found j + 1 = matchesBefore found pkts →
        t.res.fnd = true ∧ t.res.a = 0x01 ∧ t.res.b = byteAt (w j) (o + 1) ∧
        t.res.c = byteAt (w j) (o + s.frameSize - 1)) ∧
      (matchesBefore found pkts = 0 → t.res = {} ∧ t.txf = s.txf)

/-! ### The line and reset, in any state -/

/-- 20_memory.md R42, 70_reset_and_hazards.md R178: bytes that pass on the line while the block transmits, delays or is
idle are lost: the step changes nothing. Bytes that pass while it is at a capture are heard after those heard before.
And from a block that does not listen no step leaves a byte of the line to be captured: a capture that begins hears
only what passes from then on. -/
def Obligations.LineIsHeardOnlyInCapture : Prop :=
  (∀ (s : State) (bytes : List Byte) (rest : List Input), s.inputs = .line bytes :: rest →
    step s = .next (
      if s.fsm = .awaitingAck ∨ s.fsm = .receiving then { s with inputs := rest, line := s.line ++ bytes }
      else { s with inputs := rest })) ∧
  (∀ s t : State, s.Inv → step s = .next t → s.fsm ≠ .awaitingAck → s.fsm ≠ .receiving → t.line = [])

/-- 70_reset_and_hazards.md R170: reset abandons the command in execution wherever it stands, after the next `m`
accesses of the transfer under way (20_memory.md R44 gives their order), none where it waits on the link. The link
events performed stay performed: of a transmission the bytes handed to the link, of a capture the bytes received, which
the oracle does not answer again.
Of an append, or of a one-step command's OBUF bytes, those written before the reset stay written. The model's choice:
the action `.rst m` itself, what counts as an access and in which order (a delay is one, an OBUF byte is one), and the
field `past` that keeps the events (log entry 16); that the answers a cut capture took are gone from the list of the
oracle's (log entry 6); where a stalled transfer stands (log entry 20); that ENCA is among the commands that write OBUF
(log entry 19). -/
def Obligations.ResetCutsTransferShort : Prop :=
  ∀ (s : State) (m : Nat) (rest : List Input), s.Inv → s.inputs = .rst m :: rest →
    let n := if s.silent = true ∧ s.fsm.usesLink = true then 0 else m
    let left := s.windowSize - s.part
    ∃ t new, step s = .next t ∧ t.fsm = .idle ∧ t.resValid = false ∧ t.res = {} ∧ t.inputs = rest ∧
      t.trace = [] ∧ t.past = s.past ++ s.trace ++ new ∧
      (s.fsm = .sending →
        new = ((s.txf.drop s.part).take n).map .tx ++
          if s.frameSize - s.part < n ∧ s.prog.resend = false then [.delay s.par.settleUnits] else []) ∧
      (s.fsm = .replying → new = ((s.txf.drop s.part).take n).map .tx) ∧
      (s.fsm = .retrying → new = if n = 0 then [] else [.delay s.par.retryUnits]) ∧
      (s.fsm = .awaitingAck ∨ s.fsm = .receiving →
        new = ((s.linkBytes left).take n).map .rx ∧ t.rx = s.rx.drop (min n left - s.line.length)) ∧
      (s.fsm = .idle ∨ s.fsm = .acked ∨ s.fsm = .timedOut ∨ s.fsm = .unit → new = []) ∧
      (s.fsm ≠ .awaitingAck → s.fsm ≠ .receiving → t.rx = s.rx) ∧
      (∀ x, Memory.read t.obuf x =
        if (s.fsm = .receiving ∧ x < s.work.bytesDone.toNat + (n - left)) ∨ (s.fsm = .unit ∧ x < n) then
          Memory.read s.tick.obuf x
        else Memory.read s.obuf x)

/-! ### A link that does not answer -/

/-- 70_reset_and_hazards.md R186, 20_memory.md R36 to R39: a link that does not answer stalls any command that uses it. A
SEND, RECV or RECVACK then waits at its first request, with no link event; a command that waits leaves the block as it
is, accepts nothing, and no rule bounds the wait: with nothing coming from outside, every step leaves the very same
state. Only reset ends the command before the link answers again. (The commands that use no link complete in every
state: their own statements. The form, the field `silent`, is the model's, log entry 20.) -/
def Obligations.SilentLinkStallsCommand : Prop :=
  (∀ (s : State) (a n : Byte) (blk ako : Bool), s.silent = true → n ≠ 0 →
    (∃ t, exec (.send a n blk) s = .next t ∧ t.fsm = .sending ∧ t.part = 0 ∧ t.silent = true ∧ t.trace = s.trace) ∧
    (∃ t, exec (.recv n blk ako) s = .next t ∧ t.fsm = .receiving ∧ t.part = 0 ∧ t.silent = true ∧
      t.trace = s.trace) ∧
    (∃ t, exec .recvack s = .next t ∧ t.fsm = .receiving ∧ t.part = 0 ∧ t.silent = true ∧ t.trace = s.trace)) ∧
  (∀ s : State, s.silent = true →
    s.fsm = .sending ∨ s.fsm = .awaitingAck ∨ s.fsm = .retrying ∨ s.fsm = .receiving ∨ s.fsm = .replying →
    s.cmdReady = false ∧ (s.quiet → step s = .next s) ∧
    ∀ t, step s = .next t →
      t = { s with inputs := t.inputs, line := t.line, silent := t.silent } ∨ ∃ m rest, s.inputs = .rst m :: rest)

/-- R186, R188: the link may fall silent after any of the requests of a transfer, short of its last. The bytes handed
over or received until then stand in the trace, and in WIN at their places (20_memory.md R40, R41); nothing else has
changed. When it answers again the transfer goes on from there, and what it leaves is what it leaves without the wait:
no outcome depends on how long the link takes. (The actions `.stall`, `.answer` are the model's, log entry 20.) -/
def Obligations.StallOnlyDelays : Prop :=
  ∀ (s : State) (m : Nat) (rest : List Input), s.Inv → s.silent = false → s.fsm ≠ .idle →
    s.inputs = .stall m :: .answer :: .wait :: rest →
    ∃ stopped again done : State,
      step s = .next stopped ∧ step stopped = .next again ∧ step again = .next done ∧
      step { s with inputs := .wait :: rest } = .next done ∧
      again = { stopped with inputs := .wait :: rest, silent := false } ∧
      stopped = { s with
        inputs := .answer :: .wait :: rest, silent := true, trace := stopped.trace, win := stopped.win
        part := stopped.part, line := stopped.line, rx := stopped.rx, draws := stopped.draws } ∧
      (s.fsm = .sending ∨ s.fsm = .replying →
        let last := if s.fsm = .sending ∧ s.prog.resend = false then 0 else 1
        stopped.part = s.part + min m (s.frameSize - s.part - last) ∧ stopped.win = s.win ∧
        stopped.line = s.line ∧ stopped.rx = s.rx ∧ stopped.draws = s.draws ∧
        stopped.trace = s.trace ++ ((s.txf.take stopped.part).drop s.part).map .tx) ∧
      (s.fsm = .awaitingAck ∨ s.fsm = .receiving →
        let bytes := s.linkBytes (min m (s.windowSize - s.part - 1))
        stopped.part = s.part + bytes.length ∧ stopped.trace = s.trace ++ bytes.map .rx ∧
        stopped.line = s.line.drop bytes.length ∧ stopped.rx = s.rx.drop (bytes.length - s.line.length) ∧
        stopped.win = s.win.take s.part ++ bytes ++ s.win.drop stopped.part) ∧
      (s.fsm = .acked ∨ s.fsm = .retrying ∨ s.fsm = .timedOut ∨ s.fsm = .unit →
        stopped = { s with inputs := .answer :: .wait :: rest, silent := true })
end

