-- ==== Sys2Proof/Laws/Checksum.lean ====
section
/-! SUPPORT. The checksum engine: composition, and the linearity of a step over exclusive or, from which the
properties of 40_checksum.md R72 follow. -/

namespace Sys2Proof.Machine

theorem crc8_append (as bs : List Byte) : crc8 (as ++ bs) = bs.foldl crc8Step (crc8 as) := by
  simp [crc8]

theorem crc8_concat (bs : List Byte) (b : Byte) : crc8 (bs ++ [b]) = crc8Step (crc8 bs) b := by
  simp [crc8]

/-- A round is linear: what it does to an exclusive or is the exclusive or of what it does. -/
theorem crcRound_xor (c d x y : Byte) : crcRound (c ^^^ d) (x ^^^ y) = crcRound c x ^^^ crcRound d y := by
  unfold crcRound
  rw [BitVec.getLsbD_xor, BitVec.getLsbD_xor, BitVec.ushiftRight_xor_distrib]
  generalize c.getLsbD 0 = c0
  generalize d.getLsbD 0 = d0
  generalize x.getLsbD 0 = x0
  generalize y.getLsbD 0 = y0
  generalize c >>> 1 = c'
  generalize d >>> 1 = d'
  cases c0 <;> cases d0 <;> cases x0 <;> cases y0 <;>
    simp only [Bool.xor_false, Bool.xor_true, Bool.not_true, Bool.not_false, if_true, if_false,
      Bool.false_eq_true] <;>
    (ext i; simp; try (cases c'[i] <;> cases d'[i] <;> cases crcFeedback[i] <;> rfl))

theorem crcRounds_xor (n : Nat) (c d x y : Byte) :
    crcRounds n (c ^^^ d) (x ^^^ y) = crcRounds n c x ^^^ crcRounds n d y := by
  induction n generalizing c d x y with
  | zero => rfl
  | succ n ih => rw [crcRounds, crcRound_xor, BitVec.ushiftRight_xor_distrib, ih, ← crcRounds, ← crcRounds]

theorem crc8Step_xor (c d x y : Byte) : crc8Step (c ^^^ d) (x ^^^ y) = crc8Step c x ^^^ crc8Step d y :=
  crcRounds_xor 8 c d x y

end Sys2Proof.Machine
end

