-- ==== Sys2Proof/Laws/State.lean ====
section
/-! SUPPORT. One lemma per field per update of the state, each true by rfl, so that no later proof unfolds an
update; and the sizes as functions of the parameters. -/

namespace Sys2Proof.Machine.State

variable (s : State)

@[simp] theorem payloadSize_eq : s.payloadSize = s.par.payloadSize := rfl
@[simp] theorem frameSize_eq : s.frameSize = s.par.payloadSize + 4 := rfl
@[simp] theorem windowSize_eq : s.windowSize = 2 * (s.par.payloadSize + 4) := rfl

@[simp] theorem record_cfg (e : LinkEvent) : (s.record e).cfg = s.cfg := rfl
@[simp] theorem record_fsm (e : LinkEvent) : (s.record e).fsm = s.fsm := rfl
@[simp] theorem record_cmd (e : LinkEvent) : (s.record e).cmd = s.cmd := rfl
@[simp] theorem record_work (e : LinkEvent) : (s.record e).work = s.work := rfl
@[simp] theorem record_prog (e : LinkEvent) : (s.record e).prog = s.prog := rfl
@[simp] theorem record_res (e : LinkEvent) : (s.record e).res = s.res := rfl
@[simp] theorem record_resValid (e : LinkEvent) : (s.record e).resValid = s.resValid := rfl
@[simp] theorem record_txf (e : LinkEvent) : (s.record e).txf = s.txf := rfl
@[simp] theorem record_win (e : LinkEvent) : (s.record e).win = s.win := rfl
@[simp] theorem record_part (e : LinkEvent) : (s.record e).part = s.part := rfl
@[simp] theorem record_ibuf (e : LinkEvent) : (s.record e).ibuf = s.ibuf := rfl
@[simp] theorem record_obuf (e : LinkEvent) : (s.record e).obuf = s.obuf := rfl
@[simp] theorem record_trace (e : LinkEvent) : (s.record e).trace = s.trace ++ [e] := rfl
@[simp] theorem record_past (e : LinkEvent) : (s.record e).past = s.past := rfl
@[simp] theorem record_par (e : LinkEvent) : (s.record e).par = s.par := rfl
@[simp] theorem record_line (e : LinkEvent) : (s.record e).line = s.line := rfl
@[simp] theorem record_rx (e : LinkEvent) : (s.record e).rx = s.rx := rfl
@[simp] theorem record_draws (e : LinkEvent) : (s.record e).draws = s.draws := rfl
@[simp] theorem record_silent (e : LinkEvent) : (s.record e).silent = s.silent := rfl
@[simp] theorem record_inputs (e : LinkEvent) : (s.record e).inputs = s.inputs := rfl

@[simp] theorem linkSendByte_cfg (b : Byte) : (s.linkSendByte b).cfg = s.cfg := rfl
@[simp] theorem linkSendByte_fsm (b : Byte) : (s.linkSendByte b).fsm = s.fsm := rfl
@[simp] theorem linkSendByte_cmd (b : Byte) : (s.linkSendByte b).cmd = s.cmd := rfl
@[simp] theorem linkSendByte_work (b : Byte) : (s.linkSendByte b).work = s.work := rfl
@[simp] theorem linkSendByte_prog (b : Byte) : (s.linkSendByte b).prog = s.prog := rfl
@[simp] theorem linkSendByte_res (b : Byte) : (s.linkSendByte b).res = s.res := rfl
@[simp] theorem linkSendByte_resValid (b : Byte) : (s.linkSendByte b).resValid = s.resValid := rfl
@[simp] theorem linkSendByte_txf (b : Byte) : (s.linkSendByte b).txf = s.txf := rfl
@[simp] theorem linkSendByte_win (b : Byte) : (s.linkSendByte b).win = s.win := rfl
@[simp] theorem linkSendByte_part (b : Byte) : (s.linkSendByte b).part = s.part := rfl
@[simp] theorem linkSendByte_ibuf (b : Byte) : (s.linkSendByte b).ibuf = s.ibuf := rfl
@[simp] theorem linkSendByte_obuf (b : Byte) : (s.linkSendByte b).obuf = s.obuf := rfl
@[simp] theorem linkSendByte_trace (b : Byte) : (s.linkSendByte b).trace = s.trace ++ [.tx b] := rfl
@[simp] theorem linkSendByte_past (b : Byte) : (s.linkSendByte b).past = s.past := rfl
@[simp] theorem linkSendByte_par (b : Byte) : (s.linkSendByte b).par = s.par := rfl
@[simp] theorem linkSendByte_line (b : Byte) : (s.linkSendByte b).line = s.line := rfl
@[simp] theorem linkSendByte_rx (b : Byte) : (s.linkSendByte b).rx = s.rx := rfl
@[simp] theorem linkSendByte_draws (b : Byte) : (s.linkSendByte b).draws = s.draws := rfl
@[simp] theorem linkSendByte_silent (b : Byte) : (s.linkSendByte b).silent = s.silent := rfl
@[simp] theorem linkSendByte_inputs (b : Byte) : (s.linkSendByte b).inputs = s.inputs := rfl

@[simp] theorem linkDelay_cfg (n : BitVec 16) : (s.linkDelay n).cfg = s.cfg := rfl
@[simp] theorem linkDelay_fsm (n : BitVec 16) : (s.linkDelay n).fsm = s.fsm := rfl
@[simp] theorem linkDelay_cmd (n : BitVec 16) : (s.linkDelay n).cmd = s.cmd := rfl
@[simp] theorem linkDelay_work (n : BitVec 16) : (s.linkDelay n).work = s.work := rfl
@[simp] theorem linkDelay_prog (n : BitVec 16) : (s.linkDelay n).prog = s.prog := rfl
@[simp] theorem linkDelay_res (n : BitVec 16) : (s.linkDelay n).res = s.res := rfl
@[simp] theorem linkDelay_resValid (n : BitVec 16) : (s.linkDelay n).resValid = s.resValid := rfl
@[simp] theorem linkDelay_txf (n : BitVec 16) : (s.linkDelay n).txf = s.txf := rfl
@[simp] theorem linkDelay_win (n : BitVec 16) : (s.linkDelay n).win = s.win := rfl
@[simp] theorem linkDelay_part (n : BitVec 16) : (s.linkDelay n).part = s.part := rfl
@[simp] theorem linkDelay_ibuf (n : BitVec 16) : (s.linkDelay n).ibuf = s.ibuf := rfl
@[simp] theorem linkDelay_obuf (n : BitVec 16) : (s.linkDelay n).obuf = s.obuf := rfl
@[simp] theorem linkDelay_trace (n : BitVec 16) : (s.linkDelay n).trace = s.trace ++ [.delay n] := rfl
@[simp] theorem linkDelay_past (n : BitVec 16) : (s.linkDelay n).past = s.past := rfl
@[simp] theorem linkDelay_par (n : BitVec 16) : (s.linkDelay n).par = s.par := rfl
@[simp] theorem linkDelay_line (n : BitVec 16) : (s.linkDelay n).line = s.line := rfl
@[simp] theorem linkDelay_rx (n : BitVec 16) : (s.linkDelay n).rx = s.rx := rfl
@[simp] theorem linkDelay_draws (n : BitVec 16) : (s.linkDelay n).draws = s.draws := rfl
@[simp] theorem linkDelay_silent (n : BitVec 16) : (s.linkDelay n).silent = s.silent := rfl
@[simp] theorem linkDelay_inputs (n : BitVec 16) : (s.linkDelay n).inputs = s.inputs := rfl

@[simp] theorem hear_cfg (bs : List Byte) : (s.hear bs).cfg = s.cfg := rfl
@[simp] theorem hear_fsm (bs : List Byte) : (s.hear bs).fsm = s.fsm := rfl
@[simp] theorem hear_cmd (bs : List Byte) : (s.hear bs).cmd = s.cmd := rfl
@[simp] theorem hear_work (bs : List Byte) : (s.hear bs).work = s.work := rfl
@[simp] theorem hear_prog (bs : List Byte) : (s.hear bs).prog = s.prog := rfl
@[simp] theorem hear_res (bs : List Byte) : (s.hear bs).res = s.res := rfl
@[simp] theorem hear_resValid (bs : List Byte) : (s.hear bs).resValid = s.resValid := rfl
@[simp] theorem hear_txf (bs : List Byte) : (s.hear bs).txf = s.txf := rfl
@[simp] theorem hear_win (bs : List Byte) : (s.hear bs).win = s.win := rfl
@[simp] theorem hear_part (bs : List Byte) : (s.hear bs).part = s.part := rfl
@[simp] theorem hear_ibuf (bs : List Byte) : (s.hear bs).ibuf = s.ibuf := rfl
@[simp] theorem hear_obuf (bs : List Byte) : (s.hear bs).obuf = s.obuf := rfl
@[simp] theorem hear_trace (bs : List Byte) : (s.hear bs).trace = s.trace := rfl
@[simp] theorem hear_past (bs : List Byte) : (s.hear bs).past = s.past := rfl
@[simp] theorem hear_par (bs : List Byte) : (s.hear bs).par = s.par := rfl
@[simp] theorem hear_line (bs : List Byte) : (s.hear bs).line = if s.fsm.listens then s.line ++ bs else s.line := rfl
@[simp] theorem hear_rx (bs : List Byte) : (s.hear bs).rx = s.rx := rfl
@[simp] theorem hear_draws (bs : List Byte) : (s.hear bs).draws = s.draws := rfl
@[simp] theorem hear_silent (bs : List Byte) : (s.hear bs).silent = s.silent := rfl
@[simp] theorem hear_inputs (bs : List Byte) : (s.hear bs).inputs = s.inputs := rfl

@[simp] theorem dropLine_cfg : s.dropLine.cfg = s.cfg := rfl
@[simp] theorem dropLine_fsm : s.dropLine.fsm = s.fsm := rfl
@[simp] theorem dropLine_cmd : s.dropLine.cmd = s.cmd := rfl
@[simp] theorem dropLine_work : s.dropLine.work = s.work := rfl
@[simp] theorem dropLine_prog : s.dropLine.prog = s.prog := rfl
@[simp] theorem dropLine_res : s.dropLine.res = s.res := rfl
@[simp] theorem dropLine_resValid : s.dropLine.resValid = s.resValid := rfl
@[simp] theorem dropLine_txf : s.dropLine.txf = s.txf := rfl
@[simp] theorem dropLine_win : s.dropLine.win = s.win := rfl
@[simp] theorem dropLine_part : s.dropLine.part = s.part := rfl
@[simp] theorem dropLine_ibuf : s.dropLine.ibuf = s.ibuf := rfl
@[simp] theorem dropLine_obuf : s.dropLine.obuf = s.obuf := rfl
@[simp] theorem dropLine_trace : s.dropLine.trace = s.trace := rfl
@[simp] theorem dropLine_past : s.dropLine.past = s.past := rfl
@[simp] theorem dropLine_par : s.dropLine.par = s.par := rfl
@[simp] theorem dropLine_line : s.dropLine.line = [] := rfl
@[simp] theorem dropLine_rx : s.dropLine.rx = s.rx := rfl
@[simp] theorem dropLine_draws : s.dropLine.draws = s.draws := rfl
@[simp] theorem dropLine_silent : s.dropLine.silent = s.silent := rfl
@[simp] theorem dropLine_inputs : s.dropLine.inputs = s.inputs := rfl

@[simp] theorem latch_cfg (w : CmdWord) : (s.latch w).cfg = s.cfg := rfl
@[simp] theorem latch_fsm (w : CmdWord) : (s.latch w).fsm = s.fsm := rfl
@[simp] theorem latch_cmd (w : CmdWord) : (s.latch w).cmd = 
    { op := fieldOp w, blk := fieldBlk w, ako := fieldAko w, a := fieldA w, b := fieldB w, n := fieldN w } := rfl
@[simp] theorem latch_work (w : CmdWord) : (s.latch w).work = s.work := rfl
@[simp] theorem latch_prog (w : CmdWord) : (s.latch w).prog = s.prog := rfl
@[simp] theorem latch_res (w : CmdWord) : (s.latch w).res = s.res := rfl
@[simp] theorem latch_resValid (w : CmdWord) : (s.latch w).resValid = s.resValid := rfl
@[simp] theorem latch_txf (w : CmdWord) : (s.latch w).txf = s.txf := rfl
@[simp] theorem latch_win (w : CmdWord) : (s.latch w).win = s.win := rfl
@[simp] theorem latch_part (w : CmdWord) : (s.latch w).part = s.part := rfl
@[simp] theorem latch_ibuf (w : CmdWord) : (s.latch w).ibuf = s.ibuf := rfl
@[simp] theorem latch_obuf (w : CmdWord) : (s.latch w).obuf = s.obuf := rfl
@[simp] theorem latch_trace (w : CmdWord) : (s.latch w).trace = s.trace := rfl
@[simp] theorem latch_past (w : CmdWord) : (s.latch w).past = s.past := rfl
@[simp] theorem latch_par (w : CmdWord) : (s.latch w).par = s.par := rfl
@[simp] theorem latch_line (w : CmdWord) : (s.latch w).line = s.line := rfl
@[simp] theorem latch_rx (w : CmdWord) : (s.latch w).rx = s.rx := rfl
@[simp] theorem latch_draws (w : CmdWord) : (s.latch w).draws = s.draws := rfl
@[simp] theorem latch_silent (w : CmdWord) : (s.latch w).silent = s.silent := rfl
@[simp] theorem latch_inputs (w : CmdWord) : (s.latch w).inputs = s.inputs := rfl

@[simp] theorem latchOp_cfg (v : BitVec 4) : (s.latchOp v).cfg = s.cfg := rfl
@[simp] theorem latchOp_fsm (v : BitVec 4) : (s.latchOp v).fsm = s.fsm := rfl
@[simp] theorem latchOp_cmd (v : BitVec 4) : (s.latchOp v).cmd = { s.cmd with op := v } := rfl
@[simp] theorem latchOp_work (v : BitVec 4) : (s.latchOp v).work = s.work := rfl
@[simp] theorem latchOp_prog (v : BitVec 4) : (s.latchOp v).prog = s.prog := rfl
@[simp] theorem latchOp_res (v : BitVec 4) : (s.latchOp v).res = s.res := rfl
@[simp] theorem latchOp_resValid (v : BitVec 4) : (s.latchOp v).resValid = s.resValid := rfl
@[simp] theorem latchOp_txf (v : BitVec 4) : (s.latchOp v).txf = s.txf := rfl
@[simp] theorem latchOp_win (v : BitVec 4) : (s.latchOp v).win = s.win := rfl
@[simp] theorem latchOp_part (v : BitVec 4) : (s.latchOp v).part = s.part := rfl
@[simp] theorem latchOp_ibuf (v : BitVec 4) : (s.latchOp v).ibuf = s.ibuf := rfl
@[simp] theorem latchOp_obuf (v : BitVec 4) : (s.latchOp v).obuf = s.obuf := rfl
@[simp] theorem latchOp_trace (v : BitVec 4) : (s.latchOp v).trace = s.trace := rfl
@[simp] theorem latchOp_past (v : BitVec 4) : (s.latchOp v).past = s.past := rfl
@[simp] theorem latchOp_par (v : BitVec 4) : (s.latchOp v).par = s.par := rfl
@[simp] theorem latchOp_line (v : BitVec 4) : (s.latchOp v).line = s.line := rfl
@[simp] theorem latchOp_rx (v : BitVec 4) : (s.latchOp v).rx = s.rx := rfl
@[simp] theorem latchOp_draws (v : BitVec 4) : (s.latchOp v).draws = s.draws := rfl
@[simp] theorem latchOp_silent (v : BitVec 4) : (s.latchOp v).silent = s.silent := rfl
@[simp] theorem latchOp_inputs (v : BitVec 4) : (s.latchOp v).inputs = s.inputs := rfl

@[simp] theorem latchA_cfg (v : Byte) : (s.latchA v).cfg = s.cfg := rfl
@[simp] theorem latchA_fsm (v : Byte) : (s.latchA v).fsm = s.fsm := rfl
@[simp] theorem latchA_cmd (v : Byte) : (s.latchA v).cmd = { s.cmd with a := v } := rfl
@[simp] theorem latchA_work (v : Byte) : (s.latchA v).work = s.work := rfl
@[simp] theorem latchA_prog (v : Byte) : (s.latchA v).prog = s.prog := rfl
@[simp] theorem latchA_res (v : Byte) : (s.latchA v).res = s.res := rfl
@[simp] theorem latchA_resValid (v : Byte) : (s.latchA v).resValid = s.resValid := rfl
@[simp] theorem latchA_txf (v : Byte) : (s.latchA v).txf = s.txf := rfl
@[simp] theorem latchA_win (v : Byte) : (s.latchA v).win = s.win := rfl
@[simp] theorem latchA_part (v : Byte) : (s.latchA v).part = s.part := rfl
@[simp] theorem latchA_ibuf (v : Byte) : (s.latchA v).ibuf = s.ibuf := rfl
@[simp] theorem latchA_obuf (v : Byte) : (s.latchA v).obuf = s.obuf := rfl
@[simp] theorem latchA_trace (v : Byte) : (s.latchA v).trace = s.trace := rfl
@[simp] theorem latchA_past (v : Byte) : (s.latchA v).past = s.past := rfl
@[simp] theorem latchA_par (v : Byte) : (s.latchA v).par = s.par := rfl
@[simp] theorem latchA_line (v : Byte) : (s.latchA v).line = s.line := rfl
@[simp] theorem latchA_rx (v : Byte) : (s.latchA v).rx = s.rx := rfl
@[simp] theorem latchA_draws (v : Byte) : (s.latchA v).draws = s.draws := rfl
@[simp] theorem latchA_silent (v : Byte) : (s.latchA v).silent = s.silent := rfl
@[simp] theorem latchA_inputs (v : Byte) : (s.latchA v).inputs = s.inputs := rfl

@[simp] theorem latchB_cfg (v : Byte) : (s.latchB v).cfg = s.cfg := rfl
@[simp] theorem latchB_fsm (v : Byte) : (s.latchB v).fsm = s.fsm := rfl
@[simp] theorem latchB_cmd (v : Byte) : (s.latchB v).cmd = { s.cmd with b := v } := rfl
@[simp] theorem latchB_work (v : Byte) : (s.latchB v).work = s.work := rfl
@[simp] theorem latchB_prog (v : Byte) : (s.latchB v).prog = s.prog := rfl
@[simp] theorem latchB_res (v : Byte) : (s.latchB v).res = s.res := rfl
@[simp] theorem latchB_resValid (v : Byte) : (s.latchB v).resValid = s.resValid := rfl
@[simp] theorem latchB_txf (v : Byte) : (s.latchB v).txf = s.txf := rfl
@[simp] theorem latchB_win (v : Byte) : (s.latchB v).win = s.win := rfl
@[simp] theorem latchB_part (v : Byte) : (s.latchB v).part = s.part := rfl
@[simp] theorem latchB_ibuf (v : Byte) : (s.latchB v).ibuf = s.ibuf := rfl
@[simp] theorem latchB_obuf (v : Byte) : (s.latchB v).obuf = s.obuf := rfl
@[simp] theorem latchB_trace (v : Byte) : (s.latchB v).trace = s.trace := rfl
@[simp] theorem latchB_past (v : Byte) : (s.latchB v).past = s.past := rfl
@[simp] theorem latchB_par (v : Byte) : (s.latchB v).par = s.par := rfl
@[simp] theorem latchB_line (v : Byte) : (s.latchB v).line = s.line := rfl
@[simp] theorem latchB_rx (v : Byte) : (s.latchB v).rx = s.rx := rfl
@[simp] theorem latchB_draws (v : Byte) : (s.latchB v).draws = s.draws := rfl
@[simp] theorem latchB_silent (v : Byte) : (s.latchB v).silent = s.silent := rfl
@[simp] theorem latchB_inputs (v : Byte) : (s.latchB v).inputs = s.inputs := rfl

@[simp] theorem latchN_cfg (v : Byte) : (s.latchN v).cfg = s.cfg := rfl
@[simp] theorem latchN_fsm (v : Byte) : (s.latchN v).fsm = s.fsm := rfl
@[simp] theorem latchN_cmd (v : Byte) : (s.latchN v).cmd = { s.cmd with n := v } := rfl
@[simp] theorem latchN_work (v : Byte) : (s.latchN v).work = s.work := rfl
@[simp] theorem latchN_prog (v : Byte) : (s.latchN v).prog = s.prog := rfl
@[simp] theorem latchN_res (v : Byte) : (s.latchN v).res = s.res := rfl
@[simp] theorem latchN_resValid (v : Byte) : (s.latchN v).resValid = s.resValid := rfl
@[simp] theorem latchN_txf (v : Byte) : (s.latchN v).txf = s.txf := rfl
@[simp] theorem latchN_win (v : Byte) : (s.latchN v).win = s.win := rfl
@[simp] theorem latchN_part (v : Byte) : (s.latchN v).part = s.part := rfl
@[simp] theorem latchN_ibuf (v : Byte) : (s.latchN v).ibuf = s.ibuf := rfl
@[simp] theorem latchN_obuf (v : Byte) : (s.latchN v).obuf = s.obuf := rfl
@[simp] theorem latchN_trace (v : Byte) : (s.latchN v).trace = s.trace := rfl
@[simp] theorem latchN_past (v : Byte) : (s.latchN v).past = s.past := rfl
@[simp] theorem latchN_par (v : Byte) : (s.latchN v).par = s.par := rfl
@[simp] theorem latchN_line (v : Byte) : (s.latchN v).line = s.line := rfl
@[simp] theorem latchN_rx (v : Byte) : (s.latchN v).rx = s.rx := rfl
@[simp] theorem latchN_draws (v : Byte) : (s.latchN v).draws = s.draws := rfl
@[simp] theorem latchN_silent (v : Byte) : (s.latchN v).silent = s.silent := rfl
@[simp] theorem latchN_inputs (v : Byte) : (s.latchN v).inputs = s.inputs := rfl

@[simp] theorem latchBlk_cfg (v : Bool) : (s.latchBlk v).cfg = s.cfg := rfl
@[simp] theorem latchBlk_fsm (v : Bool) : (s.latchBlk v).fsm = s.fsm := rfl
@[simp] theorem latchBlk_cmd (v : Bool) : (s.latchBlk v).cmd = { s.cmd with blk := v } := rfl
@[simp] theorem latchBlk_work (v : Bool) : (s.latchBlk v).work = s.work := rfl
@[simp] theorem latchBlk_prog (v : Bool) : (s.latchBlk v).prog = s.prog := rfl
@[simp] theorem latchBlk_res (v : Bool) : (s.latchBlk v).res = s.res := rfl
@[simp] theorem latchBlk_resValid (v : Bool) : (s.latchBlk v).resValid = s.resValid := rfl
@[simp] theorem latchBlk_txf (v : Bool) : (s.latchBlk v).txf = s.txf := rfl
@[simp] theorem latchBlk_win (v : Bool) : (s.latchBlk v).win = s.win := rfl
@[simp] theorem latchBlk_part (v : Bool) : (s.latchBlk v).part = s.part := rfl
@[simp] theorem latchBlk_ibuf (v : Bool) : (s.latchBlk v).ibuf = s.ibuf := rfl
@[simp] theorem latchBlk_obuf (v : Bool) : (s.latchBlk v).obuf = s.obuf := rfl
@[simp] theorem latchBlk_trace (v : Bool) : (s.latchBlk v).trace = s.trace := rfl
@[simp] theorem latchBlk_past (v : Bool) : (s.latchBlk v).past = s.past := rfl
@[simp] theorem latchBlk_par (v : Bool) : (s.latchBlk v).par = s.par := rfl
@[simp] theorem latchBlk_line (v : Bool) : (s.latchBlk v).line = s.line := rfl
@[simp] theorem latchBlk_rx (v : Bool) : (s.latchBlk v).rx = s.rx := rfl
@[simp] theorem latchBlk_draws (v : Bool) : (s.latchBlk v).draws = s.draws := rfl
@[simp] theorem latchBlk_silent (v : Bool) : (s.latchBlk v).silent = s.silent := rfl
@[simp] theorem latchBlk_inputs (v : Bool) : (s.latchBlk v).inputs = s.inputs := rfl

@[simp] theorem latchAko_cfg (v : Bool) : (s.latchAko v).cfg = s.cfg := rfl
@[simp] theorem latchAko_fsm (v : Bool) : (s.latchAko v).fsm = s.fsm := rfl
@[simp] theorem latchAko_cmd (v : Bool) : (s.latchAko v).cmd = { s.cmd with ako := v } := rfl
@[simp] theorem latchAko_work (v : Bool) : (s.latchAko v).work = s.work := rfl
@[simp] theorem latchAko_prog (v : Bool) : (s.latchAko v).prog = s.prog := rfl
@[simp] theorem latchAko_res (v : Bool) : (s.latchAko v).res = s.res := rfl
@[simp] theorem latchAko_resValid (v : Bool) : (s.latchAko v).resValid = s.resValid := rfl
@[simp] theorem latchAko_txf (v : Bool) : (s.latchAko v).txf = s.txf := rfl
@[simp] theorem latchAko_win (v : Bool) : (s.latchAko v).win = s.win := rfl
@[simp] theorem latchAko_part (v : Bool) : (s.latchAko v).part = s.part := rfl
@[simp] theorem latchAko_ibuf (v : Bool) : (s.latchAko v).ibuf = s.ibuf := rfl
@[simp] theorem latchAko_obuf (v : Bool) : (s.latchAko v).obuf = s.obuf := rfl
@[simp] theorem latchAko_trace (v : Bool) : (s.latchAko v).trace = s.trace := rfl
@[simp] theorem latchAko_past (v : Bool) : (s.latchAko v).past = s.past := rfl
@[simp] theorem latchAko_par (v : Bool) : (s.latchAko v).par = s.par := rfl
@[simp] theorem latchAko_line (v : Bool) : (s.latchAko v).line = s.line := rfl
@[simp] theorem latchAko_rx (v : Bool) : (s.latchAko v).rx = s.rx := rfl
@[simp] theorem latchAko_draws (v : Bool) : (s.latchAko v).draws = s.draws := rfl
@[simp] theorem latchAko_silent (v : Bool) : (s.latchAko v).silent = s.silent := rfl
@[simp] theorem latchAko_inputs (v : Bool) : (s.latchAko v).inputs = s.inputs := rfl

@[simp] theorem setFsm_cfg (f : Fsm) : (s.setFsm f).cfg = s.cfg := rfl
@[simp] theorem setFsm_fsm (f : Fsm) : (s.setFsm f).fsm = f := rfl
@[simp] theorem setFsm_cmd (f : Fsm) : (s.setFsm f).cmd = s.cmd := rfl
@[simp] theorem setFsm_work (f : Fsm) : (s.setFsm f).work = s.work := rfl
@[simp] theorem setFsm_prog (f : Fsm) : (s.setFsm f).prog = s.prog := rfl
@[simp] theorem setFsm_res (f : Fsm) : (s.setFsm f).res = s.res := rfl
@[simp] theorem setFsm_resValid (f : Fsm) : (s.setFsm f).resValid = s.resValid := rfl
@[simp] theorem setFsm_txf (f : Fsm) : (s.setFsm f).txf = s.txf := rfl
@[simp] theorem setFsm_win (f : Fsm) : (s.setFsm f).win = s.win := rfl
@[simp] theorem setFsm_part (f : Fsm) : (s.setFsm f).part = 0 := rfl
@[simp] theorem setFsm_ibuf (f : Fsm) : (s.setFsm f).ibuf = s.ibuf := rfl
@[simp] theorem setFsm_obuf (f : Fsm) : (s.setFsm f).obuf = s.obuf := rfl
@[simp] theorem setFsm_trace (f : Fsm) : (s.setFsm f).trace = s.trace := rfl
@[simp] theorem setFsm_past (f : Fsm) : (s.setFsm f).past = s.past := rfl
@[simp] theorem setFsm_par (f : Fsm) : (s.setFsm f).par = s.par := rfl
@[simp] theorem setFsm_line (f : Fsm) : (s.setFsm f).line = if f.listens then s.line else [] := rfl
@[simp] theorem setFsm_rx (f : Fsm) : (s.setFsm f).rx = s.rx := rfl
@[simp] theorem setFsm_draws (f : Fsm) : (s.setFsm f).draws = s.draws := rfl
@[simp] theorem setFsm_silent (f : Fsm) : (s.setFsm f).silent = s.silent := rfl
@[simp] theorem setFsm_inputs (f : Fsm) : (s.setFsm f).inputs = s.inputs := rfl

@[simp] theorem complete_cfg (r : Result) : (s.complete r).cfg = s.cfg := rfl
@[simp] theorem complete_fsm (r : Result) : (s.complete r).fsm = .idle := rfl
@[simp] theorem complete_cmd (r : Result) : (s.complete r).cmd = s.cmd := rfl
@[simp] theorem complete_work (r : Result) : (s.complete r).work = s.work := rfl
@[simp] theorem complete_prog (r : Result) : (s.complete r).prog = s.prog := rfl
@[simp] theorem complete_res (r : Result) : (s.complete r).res = r := rfl
@[simp] theorem complete_resValid (r : Result) : (s.complete r).resValid = true := rfl
@[simp] theorem complete_txf (r : Result) : (s.complete r).txf = s.txf := rfl
@[simp] theorem complete_win (r : Result) : (s.complete r).win = s.win := rfl
@[simp] theorem complete_part (r : Result) : (s.complete r).part = 0 := rfl
@[simp] theorem complete_ibuf (r : Result) : (s.complete r).ibuf = s.ibuf := rfl
@[simp] theorem complete_obuf (r : Result) : (s.complete r).obuf = s.obuf := rfl
@[simp] theorem complete_trace (r : Result) : (s.complete r).trace = s.trace := rfl
@[simp] theorem complete_past (r : Result) : (s.complete r).past = s.past := rfl
@[simp] theorem complete_par (r : Result) : (s.complete r).par = s.par := rfl
@[simp] theorem complete_line (r : Result) : (s.complete r).line = [] := rfl
@[simp] theorem complete_rx (r : Result) : (s.complete r).rx = s.rx := rfl
@[simp] theorem complete_draws (r : Result) : (s.complete r).draws = s.draws := rfl
@[simp] theorem complete_silent (r : Result) : (s.complete r).silent = s.silent := rfl
@[simp] theorem complete_inputs (r : Result) : (s.complete r).inputs = s.inputs := rfl

@[simp] theorem setCrc_cfg (c : Byte) : (s.setCrc c).cfg = s.cfg := rfl
@[simp] theorem setCrc_fsm (c : Byte) : (s.setCrc c).fsm = s.fsm := rfl
@[simp] theorem setCrc_cmd (c : Byte) : (s.setCrc c).cmd = s.cmd := rfl
@[simp] theorem setCrc_work (c : Byte) : (s.setCrc c).work = { s.work with crc := c } := rfl
@[simp] theorem setCrc_prog (c : Byte) : (s.setCrc c).prog = s.prog := rfl
@[simp] theorem setCrc_res (c : Byte) : (s.setCrc c).res = s.res := rfl
@[simp] theorem setCrc_resValid (c : Byte) : (s.setCrc c).resValid = s.resValid := rfl
@[simp] theorem setCrc_txf (c : Byte) : (s.setCrc c).txf = s.txf := rfl
@[simp] theorem setCrc_win (c : Byte) : (s.setCrc c).win = s.win := rfl
@[simp] theorem setCrc_part (c : Byte) : (s.setCrc c).part = s.part := rfl
@[simp] theorem setCrc_ibuf (c : Byte) : (s.setCrc c).ibuf = s.ibuf := rfl
@[simp] theorem setCrc_obuf (c : Byte) : (s.setCrc c).obuf = s.obuf := rfl
@[simp] theorem setCrc_trace (c : Byte) : (s.setCrc c).trace = s.trace := rfl
@[simp] theorem setCrc_past (c : Byte) : (s.setCrc c).past = s.past := rfl
@[simp] theorem setCrc_par (c : Byte) : (s.setCrc c).par = s.par := rfl
@[simp] theorem setCrc_line (c : Byte) : (s.setCrc c).line = s.line := rfl
@[simp] theorem setCrc_rx (c : Byte) : (s.setCrc c).rx = s.rx := rfl
@[simp] theorem setCrc_draws (c : Byte) : (s.setCrc c).draws = s.draws := rfl
@[simp] theorem setCrc_silent (c : Byte) : (s.setCrc c).silent = s.silent := rfl
@[simp] theorem setCrc_inputs (c : Byte) : (s.setCrc c).inputs = s.inputs := rfl

@[simp] theorem loadTxf_cfg (f : List Byte) : (s.loadTxf f).cfg = s.cfg := rfl
@[simp] theorem loadTxf_fsm (f : List Byte) : (s.loadTxf f).fsm = s.fsm := rfl
@[simp] theorem loadTxf_cmd (f : List Byte) : (s.loadTxf f).cmd = s.cmd := rfl
@[simp] theorem loadTxf_work (f : List Byte) : (s.loadTxf f).work = { s.work with crc := byteAt f (s.frameSize - 1) } := rfl
@[simp] theorem loadTxf_prog (f : List Byte) : (s.loadTxf f).prog = s.prog := rfl
@[simp] theorem loadTxf_res (f : List Byte) : (s.loadTxf f).res = s.res := rfl
@[simp] theorem loadTxf_resValid (f : List Byte) : (s.loadTxf f).resValid = s.resValid := rfl
@[simp] theorem loadTxf_txf (f : List Byte) : (s.loadTxf f).txf = f := rfl
@[simp] theorem loadTxf_win (f : List Byte) : (s.loadTxf f).win = s.win := rfl
@[simp] theorem loadTxf_part (f : List Byte) : (s.loadTxf f).part = s.part := rfl
@[simp] theorem loadTxf_ibuf (f : List Byte) : (s.loadTxf f).ibuf = s.ibuf := rfl
@[simp] theorem loadTxf_obuf (f : List Byte) : (s.loadTxf f).obuf = s.obuf := rfl
@[simp] theorem loadTxf_trace (f : List Byte) : (s.loadTxf f).trace = s.trace := rfl
@[simp] theorem loadTxf_past (f : List Byte) : (s.loadTxf f).past = s.past := rfl
@[simp] theorem loadTxf_par (f : List Byte) : (s.loadTxf f).par = s.par := rfl
@[simp] theorem loadTxf_line (f : List Byte) : (s.loadTxf f).line = s.line := rfl
@[simp] theorem loadTxf_rx (f : List Byte) : (s.loadTxf f).rx = s.rx := rfl
@[simp] theorem loadTxf_draws (f : List Byte) : (s.loadTxf f).draws = s.draws := rfl
@[simp] theorem loadTxf_silent (f : List Byte) : (s.loadTxf f).silent = s.silent := rfl
@[simp] theorem loadTxf_inputs (f : List Byte) : (s.loadTxf f).inputs = s.inputs := rfl

@[simp] theorem loadWin_cfg : s.loadWin.cfg = s.cfg := rfl
@[simp] theorem loadWin_fsm : s.loadWin.fsm = s.fsm := rfl
@[simp] theorem loadWin_cmd : s.loadWin.cmd = s.cmd := rfl
@[simp] theorem loadWin_work : s.loadWin.work = s.work := rfl
@[simp] theorem loadWin_prog : s.loadWin.prog = s.prog := rfl
@[simp] theorem loadWin_res : s.loadWin.res = s.res := rfl
@[simp] theorem loadWin_resValid : s.loadWin.resValid = s.resValid := rfl
@[simp] theorem loadWin_txf : s.loadWin.txf = s.txf := rfl
@[simp] theorem loadWin_win : s.loadWin.win = s.ibufBytes 0 s.windowSize := rfl
@[simp] theorem loadWin_part : s.loadWin.part = s.part := rfl
@[simp] theorem loadWin_ibuf : s.loadWin.ibuf = s.ibuf := rfl
@[simp] theorem loadWin_obuf : s.loadWin.obuf = s.obuf := rfl
@[simp] theorem loadWin_trace : s.loadWin.trace = s.trace := rfl
@[simp] theorem loadWin_past : s.loadWin.past = s.past := rfl
@[simp] theorem loadWin_par : s.loadWin.par = s.par := rfl
@[simp] theorem loadWin_line : s.loadWin.line = s.line := rfl
@[simp] theorem loadWin_rx : s.loadWin.rx = s.rx := rfl
@[simp] theorem loadWin_draws : s.loadWin.draws = s.draws := rfl
@[simp] theorem loadWin_silent : s.loadWin.silent = s.silent := rfl
@[simp] theorem loadWin_inputs : s.loadWin.inputs = s.inputs := rfl

@[simp] theorem obufStore_cfg (base : Nat) (bs : List Byte) : (s.obufStore base bs).cfg = s.cfg := rfl
@[simp] theorem obufStore_fsm (base : Nat) (bs : List Byte) : (s.obufStore base bs).fsm = s.fsm := rfl
@[simp] theorem obufStore_cmd (base : Nat) (bs : List Byte) : (s.obufStore base bs).cmd = s.cmd := rfl
@[simp] theorem obufStore_work (base : Nat) (bs : List Byte) : (s.obufStore base bs).work = s.work := rfl
@[simp] theorem obufStore_prog (base : Nat) (bs : List Byte) : (s.obufStore base bs).prog = s.prog := rfl
@[simp] theorem obufStore_res (base : Nat) (bs : List Byte) : (s.obufStore base bs).res = s.res := rfl
@[simp] theorem obufStore_resValid (base : Nat) (bs : List Byte) : (s.obufStore base bs).resValid = s.resValid := rfl
@[simp] theorem obufStore_txf (base : Nat) (bs : List Byte) : (s.obufStore base bs).txf = s.txf := rfl
@[simp] theorem obufStore_win (base : Nat) (bs : List Byte) : (s.obufStore base bs).win = s.win := rfl
@[simp] theorem obufStore_part (base : Nat) (bs : List Byte) : (s.obufStore base bs).part = s.part := rfl
@[simp] theorem obufStore_ibuf (base : Nat) (bs : List Byte) : (s.obufStore base bs).ibuf = s.ibuf := rfl
@[simp] theorem obufStore_obuf (base : Nat) (bs : List Byte) : (s.obufStore base bs).obuf = Memory.writeBytes s.obuf base bs := rfl
@[simp] theorem obufStore_trace (base : Nat) (bs : List Byte) : (s.obufStore base bs).trace = s.trace := rfl
@[simp] theorem obufStore_past (base : Nat) (bs : List Byte) : (s.obufStore base bs).past = s.past := rfl
@[simp] theorem obufStore_par (base : Nat) (bs : List Byte) : (s.obufStore base bs).par = s.par := rfl
@[simp] theorem obufStore_line (base : Nat) (bs : List Byte) : (s.obufStore base bs).line = s.line := rfl
@[simp] theorem obufStore_rx (base : Nat) (bs : List Byte) : (s.obufStore base bs).rx = s.rx := rfl
@[simp] theorem obufStore_draws (base : Nat) (bs : List Byte) : (s.obufStore base bs).draws = s.draws := rfl
@[simp] theorem obufStore_silent (base : Nat) (bs : List Byte) : (s.obufStore base bs).silent = s.silent := rfl
@[simp] theorem obufStore_inputs (base : Nat) (bs : List Byte) : (s.obufStore base bs).inputs = s.inputs := rfl

@[simp] theorem scanned_cfg (addr : Byte) (ako : Bool) : (s.scanned addr ako).cfg = s.cfg := rfl
@[simp] theorem scanned_fsm (addr : Byte) (ako : Bool) : (s.scanned addr ako).fsm = s.fsm := rfl
@[simp] theorem scanned_cmd (addr : Byte) (ako : Bool) : (s.scanned addr ako).cmd = s.cmd := rfl
@[simp] theorem scanned_prog (addr : Byte) (ako : Bool) : (s.scanned addr ako).prog = s.prog := rfl
@[simp] theorem scanned_res (addr : Byte) (ako : Bool) : (s.scanned addr ako).res = s.res := rfl
@[simp] theorem scanned_resValid (addr : Byte) (ako : Bool) : (s.scanned addr ako).resValid = s.resValid := rfl
@[simp] theorem scanned_txf (addr : Byte) (ako : Bool) : (s.scanned addr ako).txf = s.txf := rfl
@[simp] theorem scanned_win (addr : Byte) (ako : Bool) : (s.scanned addr ako).win = s.win := rfl
@[simp] theorem scanned_part (addr : Byte) (ako : Bool) : (s.scanned addr ako).part = s.part := rfl
@[simp] theorem scanned_ibuf (addr : Byte) (ako : Bool) : (s.scanned addr ako).ibuf = s.ibuf := rfl
@[simp] theorem scanned_obuf (addr : Byte) (ako : Bool) : (s.scanned addr ako).obuf = s.obuf := rfl
@[simp] theorem scanned_trace (addr : Byte) (ako : Bool) : (s.scanned addr ako).trace = s.trace := rfl
@[simp] theorem scanned_past (addr : Byte) (ako : Bool) : (s.scanned addr ako).past = s.past := rfl
@[simp] theorem scanned_par (addr : Byte) (ako : Bool) : (s.scanned addr ako).par = s.par := rfl
@[simp] theorem scanned_line (addr : Byte) (ako : Bool) : (s.scanned addr ako).line = s.line := rfl
@[simp] theorem scanned_rx (addr : Byte) (ako : Bool) : (s.scanned addr ako).rx = s.rx := rfl
@[simp] theorem scanned_draws (addr : Byte) (ako : Bool) : (s.scanned addr ako).draws = s.draws := rfl
@[simp] theorem scanned_silent (addr : Byte) (ako : Bool) : (s.scanned addr ako).silent = s.silent := rfl
@[simp] theorem scanned_inputs (addr : Byte) (ako : Bool) : (s.scanned addr ako).inputs = s.inputs := rfl

@[simp] theorem linkAnswers_cfg : s.linkAnswers.cfg = s.cfg := rfl
@[simp] theorem linkAnswers_fsm : s.linkAnswers.fsm = s.fsm := rfl
@[simp] theorem linkAnswers_cmd : s.linkAnswers.cmd = s.cmd := rfl
@[simp] theorem linkAnswers_work : s.linkAnswers.work = s.work := rfl
@[simp] theorem linkAnswers_prog : s.linkAnswers.prog = s.prog := rfl
@[simp] theorem linkAnswers_res : s.linkAnswers.res = s.res := rfl
@[simp] theorem linkAnswers_resValid : s.linkAnswers.resValid = s.resValid := rfl
@[simp] theorem linkAnswers_txf : s.linkAnswers.txf = s.txf := rfl
@[simp] theorem linkAnswers_win : s.linkAnswers.win = s.win := rfl
@[simp] theorem linkAnswers_part : s.linkAnswers.part = s.part := rfl
@[simp] theorem linkAnswers_ibuf : s.linkAnswers.ibuf = s.ibuf := rfl
@[simp] theorem linkAnswers_obuf : s.linkAnswers.obuf = s.obuf := rfl
@[simp] theorem linkAnswers_trace : s.linkAnswers.trace = s.trace := rfl
@[simp] theorem linkAnswers_past : s.linkAnswers.past = s.past := rfl
@[simp] theorem linkAnswers_par : s.linkAnswers.par = s.par := rfl
@[simp] theorem linkAnswers_line : s.linkAnswers.line = s.line := rfl
@[simp] theorem linkAnswers_rx : s.linkAnswers.rx = s.rx := rfl
@[simp] theorem linkAnswers_draws : s.linkAnswers.draws = s.draws := rfl
@[simp] theorem linkAnswers_silent : s.linkAnswers.silent = false := rfl
@[simp] theorem linkAnswers_inputs : s.linkAnswers.inputs = s.inputs := rfl

@[simp] theorem takeResult_cfg : s.takeResult.cfg = s.cfg := rfl
@[simp] theorem takeResult_fsm : s.takeResult.fsm = s.fsm := rfl
@[simp] theorem takeResult_cmd : s.takeResult.cmd = s.cmd := rfl
@[simp] theorem takeResult_work : s.takeResult.work = s.work := rfl
@[simp] theorem takeResult_prog : s.takeResult.prog = s.prog := rfl
@[simp] theorem takeResult_res : s.takeResult.res = s.res := rfl
@[simp] theorem takeResult_resValid : s.takeResult.resValid = false := rfl
@[simp] theorem takeResult_txf : s.takeResult.txf = s.txf := rfl
@[simp] theorem takeResult_win : s.takeResult.win = s.win := rfl
@[simp] theorem takeResult_part : s.takeResult.part = s.part := rfl
@[simp] theorem takeResult_ibuf : s.takeResult.ibuf = s.ibuf := rfl
@[simp] theorem takeResult_obuf : s.takeResult.obuf = s.obuf := rfl
@[simp] theorem takeResult_trace : s.takeResult.trace = s.trace := rfl
@[simp] theorem takeResult_past : s.takeResult.past = s.past := rfl
@[simp] theorem takeResult_par : s.takeResult.par = s.par := rfl
@[simp] theorem takeResult_line : s.takeResult.line = s.line := rfl
@[simp] theorem takeResult_rx : s.takeResult.rx = s.rx := rfl
@[simp] theorem takeResult_draws : s.takeResult.draws = s.draws := rfl
@[simp] theorem takeResult_silent : s.takeResult.silent = s.silent := rfl
@[simp] theorem takeResult_inputs : s.takeResult.inputs = s.inputs := rfl

@[simp] theorem hostWriteIbuf_cfg (addr : Addr9) (b : Byte) : (s.hostWriteIbuf addr b).cfg = s.cfg := rfl
@[simp] theorem hostWriteIbuf_fsm (addr : Addr9) (b : Byte) : (s.hostWriteIbuf addr b).fsm = s.fsm := rfl
@[simp] theorem hostWriteIbuf_cmd (addr : Addr9) (b : Byte) : (s.hostWriteIbuf addr b).cmd = s.cmd := rfl
@[simp] theorem hostWriteIbuf_work (addr : Addr9) (b : Byte) : (s.hostWriteIbuf addr b).work = s.work := rfl
@[simp] theorem hostWriteIbuf_prog (addr : Addr9) (b : Byte) : (s.hostWriteIbuf addr b).prog = s.prog := rfl
@[simp] theorem hostWriteIbuf_res (addr : Addr9) (b : Byte) : (s.hostWriteIbuf addr b).res = s.res := rfl
@[simp] theorem hostWriteIbuf_resValid (addr : Addr9) (b : Byte) : (s.hostWriteIbuf addr b).resValid = s.resValid := rfl
@[simp] theorem hostWriteIbuf_txf (addr : Addr9) (b : Byte) : (s.hostWriteIbuf addr b).txf = s.txf := rfl
@[simp] theorem hostWriteIbuf_win (addr : Addr9) (b : Byte) : (s.hostWriteIbuf addr b).win = s.win := rfl
@[simp] theorem hostWriteIbuf_part (addr : Addr9) (b : Byte) : (s.hostWriteIbuf addr b).part = s.part := rfl
@[simp] theorem hostWriteIbuf_ibuf (addr : Addr9) (b : Byte) : (s.hostWriteIbuf addr b).ibuf = Memory.write s.ibuf addr.toNat b := rfl
@[simp] theorem hostWriteIbuf_obuf (addr : Addr9) (b : Byte) : (s.hostWriteIbuf addr b).obuf = s.obuf := rfl
@[simp] theorem hostWriteIbuf_trace (addr : Addr9) (b : Byte) : (s.hostWriteIbuf addr b).trace = s.trace := rfl
@[simp] theorem hostWriteIbuf_past (addr : Addr9) (b : Byte) : (s.hostWriteIbuf addr b).past = s.past := rfl
@[simp] theorem hostWriteIbuf_par (addr : Addr9) (b : Byte) : (s.hostWriteIbuf addr b).par = s.par := rfl
@[simp] theorem hostWriteIbuf_line (addr : Addr9) (b : Byte) : (s.hostWriteIbuf addr b).line = s.line := rfl
@[simp] theorem hostWriteIbuf_rx (addr : Addr9) (b : Byte) : (s.hostWriteIbuf addr b).rx = s.rx := rfl
@[simp] theorem hostWriteIbuf_draws (addr : Addr9) (b : Byte) : (s.hostWriteIbuf addr b).draws = s.draws := rfl
@[simp] theorem hostWriteIbuf_silent (addr : Addr9) (b : Byte) : (s.hostWriteIbuf addr b).silent = s.silent := rfl
@[simp] theorem hostWriteIbuf_inputs (addr : Addr9) (b : Byte) : (s.hostWriteIbuf addr b).inputs = s.inputs := rfl

@[simp] theorem hostWriteObuf_cfg (addr : Addr9) (b : Byte) : (s.hostWriteObuf addr b).cfg = s.cfg := rfl
@[simp] theorem hostWriteObuf_fsm (addr : Addr9) (b : Byte) : (s.hostWriteObuf addr b).fsm = s.fsm := rfl
@[simp] theorem hostWriteObuf_cmd (addr : Addr9) (b : Byte) : (s.hostWriteObuf addr b).cmd = s.cmd := rfl
@[simp] theorem hostWriteObuf_work (addr : Addr9) (b : Byte) : (s.hostWriteObuf addr b).work = s.work := rfl
@[simp] theorem hostWriteObuf_prog (addr : Addr9) (b : Byte) : (s.hostWriteObuf addr b).prog = s.prog := rfl
@[simp] theorem hostWriteObuf_res (addr : Addr9) (b : Byte) : (s.hostWriteObuf addr b).res = s.res := rfl
@[simp] theorem hostWriteObuf_resValid (addr : Addr9) (b : Byte) : (s.hostWriteObuf addr b).resValid = s.resValid := rfl
@[simp] theorem hostWriteObuf_txf (addr : Addr9) (b : Byte) : (s.hostWriteObuf addr b).txf = s.txf := rfl
@[simp] theorem hostWriteObuf_win (addr : Addr9) (b : Byte) : (s.hostWriteObuf addr b).win = s.win := rfl
@[simp] theorem hostWriteObuf_part (addr : Addr9) (b : Byte) : (s.hostWriteObuf addr b).part = s.part := rfl
@[simp] theorem hostWriteObuf_ibuf (addr : Addr9) (b : Byte) : (s.hostWriteObuf addr b).ibuf = s.ibuf := rfl
@[simp] theorem hostWriteObuf_obuf (addr : Addr9) (b : Byte) : (s.hostWriteObuf addr b).obuf = Memory.write s.obuf addr.toNat b := rfl
@[simp] theorem hostWriteObuf_trace (addr : Addr9) (b : Byte) : (s.hostWriteObuf addr b).trace = s.trace := rfl
@[simp] theorem hostWriteObuf_past (addr : Addr9) (b : Byte) : (s.hostWriteObuf addr b).past = s.past := rfl
@[simp] theorem hostWriteObuf_par (addr : Addr9) (b : Byte) : (s.hostWriteObuf addr b).par = s.par := rfl
@[simp] theorem hostWriteObuf_line (addr : Addr9) (b : Byte) : (s.hostWriteObuf addr b).line = s.line := rfl
@[simp] theorem hostWriteObuf_rx (addr : Addr9) (b : Byte) : (s.hostWriteObuf addr b).rx = s.rx := rfl
@[simp] theorem hostWriteObuf_draws (addr : Addr9) (b : Byte) : (s.hostWriteObuf addr b).draws = s.draws := rfl
@[simp] theorem hostWriteObuf_silent (addr : Addr9) (b : Byte) : (s.hostWriteObuf addr b).silent = s.silent := rfl
@[simp] theorem hostWriteObuf_inputs (addr : Addr9) (b : Byte) : (s.hostWriteObuf addr b).inputs = s.inputs := rfl

@[simp] theorem afterReset_cfg : s.afterReset.cfg = s.par.resetCfg := rfl
@[simp] theorem afterReset_fsm : s.afterReset.fsm = .idle := rfl
@[simp] theorem afterReset_res : s.afterReset.res = {} := rfl
@[simp] theorem afterReset_resValid : s.afterReset.resValid = false := rfl
@[simp] theorem afterReset_txf : s.afterReset.txf = List.replicate s.frameSize 0 := rfl
@[simp] theorem afterReset_win : s.afterReset.win = List.replicate s.windowSize 0 := rfl
@[simp] theorem afterReset_part : s.afterReset.part = 0 := rfl
@[simp] theorem afterReset_ibuf : s.afterReset.ibuf = s.ibuf := rfl
@[simp] theorem afterReset_obuf : s.afterReset.obuf = s.obuf := rfl
@[simp] theorem afterReset_trace : s.afterReset.trace = [] := rfl
@[simp] theorem afterReset_past : s.afterReset.past = s.past ++ s.trace := rfl
@[simp] theorem afterReset_par : s.afterReset.par = s.par := rfl
@[simp] theorem afterReset_line : s.afterReset.line = [] := rfl
@[simp] theorem afterReset_rx : s.afterReset.rx = s.rx := rfl
@[simp] theorem afterReset_draws : s.afterReset.draws = s.draws := rfl
@[simp] theorem afterReset_silent : s.afterReset.silent = s.silent := rfl
@[simp] theorem afterReset_inputs : s.afterReset.inputs = s.inputs := rfl

@[simp] theorem setPkts_cfg (v : Byte) : (s.setPkts v).cfg = s.cfg := rfl
@[simp] theorem setPkts_fsm (v : Byte) : (s.setPkts v).fsm = s.fsm := rfl
@[simp] theorem setPkts_cmd (v : Byte) : (s.setPkts v).cmd = s.cmd := rfl
@[simp] theorem setPkts_work (v : Byte) : (s.setPkts v).work = { s.work with pkts := v } := rfl
@[simp] theorem setPkts_prog (v : Byte) : (s.setPkts v).prog = s.prog := rfl
@[simp] theorem setPkts_res (v : Byte) : (s.setPkts v).res = s.res := rfl
@[simp] theorem setPkts_resValid (v : Byte) : (s.setPkts v).resValid = s.resValid := rfl
@[simp] theorem setPkts_txf (v : Byte) : (s.setPkts v).txf = s.txf := rfl
@[simp] theorem setPkts_win (v : Byte) : (s.setPkts v).win = s.win := rfl
@[simp] theorem setPkts_part (v : Byte) : (s.setPkts v).part = s.part := rfl
@[simp] theorem setPkts_ibuf (v : Byte) : (s.setPkts v).ibuf = s.ibuf := rfl
@[simp] theorem setPkts_obuf (v : Byte) : (s.setPkts v).obuf = s.obuf := rfl
@[simp] theorem setPkts_trace (v : Byte) : (s.setPkts v).trace = s.trace := rfl
@[simp] theorem setPkts_past (v : Byte) : (s.setPkts v).past = s.past := rfl
@[simp] theorem setPkts_par (v : Byte) : (s.setPkts v).par = s.par := rfl
@[simp] theorem setPkts_line (v : Byte) : (s.setPkts v).line = s.line := rfl
@[simp] theorem setPkts_rx (v : Byte) : (s.setPkts v).rx = s.rx := rfl
@[simp] theorem setPkts_draws (v : Byte) : (s.setPkts v).draws = s.draws := rfl
@[simp] theorem setPkts_silent (v : Byte) : (s.setPkts v).silent = s.silent := rfl
@[simp] theorem setPkts_inputs (v : Byte) : (s.setPkts v).inputs = s.inputs := rfl

@[simp] theorem setK_cfg (v : Byte) : (s.setK v).cfg = s.cfg := rfl
@[simp] theorem setK_fsm (v : Byte) : (s.setK v).fsm = s.fsm := rfl
@[simp] theorem setK_cmd (v : Byte) : (s.setK v).cmd = s.cmd := rfl
@[simp] theorem setK_work (v : Byte) : (s.setK v).work = { s.work with k := v } := rfl
@[simp] theorem setK_prog (v : Byte) : (s.setK v).prog = s.prog := rfl
@[simp] theorem setK_res (v : Byte) : (s.setK v).res = s.res := rfl
@[simp] theorem setK_resValid (v : Byte) : (s.setK v).resValid = s.resValid := rfl
@[simp] theorem setK_txf (v : Byte) : (s.setK v).txf = s.txf := rfl
@[simp] theorem setK_win (v : Byte) : (s.setK v).win = s.win := rfl
@[simp] theorem setK_part (v : Byte) : (s.setK v).part = s.part := rfl
@[simp] theorem setK_ibuf (v : Byte) : (s.setK v).ibuf = s.ibuf := rfl
@[simp] theorem setK_obuf (v : Byte) : (s.setK v).obuf = s.obuf := rfl
@[simp] theorem setK_trace (v : Byte) : (s.setK v).trace = s.trace := rfl
@[simp] theorem setK_past (v : Byte) : (s.setK v).past = s.past := rfl
@[simp] theorem setK_par (v : Byte) : (s.setK v).par = s.par := rfl
@[simp] theorem setK_line (v : Byte) : (s.setK v).line = s.line := rfl
@[simp] theorem setK_rx (v : Byte) : (s.setK v).rx = s.rx := rfl
@[simp] theorem setK_draws (v : Byte) : (s.setK v).draws = s.draws := rfl
@[simp] theorem setK_silent (v : Byte) : (s.setK v).silent = s.silent := rfl
@[simp] theorem setK_inputs (v : Byte) : (s.setK v).inputs = s.inputs := rfl

@[simp] theorem setAttempts_cfg (v : Byte) : (s.setAttempts v).cfg = s.cfg := rfl
@[simp] theorem setAttempts_fsm (v : Byte) : (s.setAttempts v).fsm = s.fsm := rfl
@[simp] theorem setAttempts_cmd (v : Byte) : (s.setAttempts v).cmd = s.cmd := rfl
@[simp] theorem setAttempts_work (v : Byte) : (s.setAttempts v).work = { s.work with attempts := v } := rfl
@[simp] theorem setAttempts_prog (v : Byte) : (s.setAttempts v).prog = s.prog := rfl
@[simp] theorem setAttempts_res (v : Byte) : (s.setAttempts v).res = s.res := rfl
@[simp] theorem setAttempts_resValid (v : Byte) : (s.setAttempts v).resValid = s.resValid := rfl
@[simp] theorem setAttempts_txf (v : Byte) : (s.setAttempts v).txf = s.txf := rfl
@[simp] theorem setAttempts_win (v : Byte) : (s.setAttempts v).win = s.win := rfl
@[simp] theorem setAttempts_part (v : Byte) : (s.setAttempts v).part = s.part := rfl
@[simp] theorem setAttempts_ibuf (v : Byte) : (s.setAttempts v).ibuf = s.ibuf := rfl
@[simp] theorem setAttempts_obuf (v : Byte) : (s.setAttempts v).obuf = s.obuf := rfl
@[simp] theorem setAttempts_trace (v : Byte) : (s.setAttempts v).trace = s.trace := rfl
@[simp] theorem setAttempts_past (v : Byte) : (s.setAttempts v).past = s.past := rfl
@[simp] theorem setAttempts_par (v : Byte) : (s.setAttempts v).par = s.par := rfl
@[simp] theorem setAttempts_line (v : Byte) : (s.setAttempts v).line = s.line := rfl
@[simp] theorem setAttempts_rx (v : Byte) : (s.setAttempts v).rx = s.rx := rfl
@[simp] theorem setAttempts_draws (v : Byte) : (s.setAttempts v).draws = s.draws := rfl
@[simp] theorem setAttempts_silent (v : Byte) : (s.setAttempts v).silent = s.silent := rfl
@[simp] theorem setAttempts_inputs (v : Byte) : (s.setAttempts v).inputs = s.inputs := rfl

@[simp] theorem setResend_cfg (v : Bool) : (s.setResend v).cfg = s.cfg := rfl
@[simp] theorem setResend_fsm (v : Bool) : (s.setResend v).fsm = s.fsm := rfl
@[simp] theorem setResend_cmd (v : Bool) : (s.setResend v).cmd = s.cmd := rfl
@[simp] theorem setResend_work (v : Bool) : (s.setResend v).work = s.work := rfl
@[simp] theorem setResend_prog (v : Bool) : (s.setResend v).prog = { s.prog with resend := v } := rfl
@[simp] theorem setResend_res (v : Bool) : (s.setResend v).res = s.res := rfl
@[simp] theorem setResend_resValid (v : Bool) : (s.setResend v).resValid = s.resValid := rfl
@[simp] theorem setResend_txf (v : Bool) : (s.setResend v).txf = s.txf := rfl
@[simp] theorem setResend_win (v : Bool) : (s.setResend v).win = s.win := rfl
@[simp] theorem setResend_part (v : Bool) : (s.setResend v).part = s.part := rfl
@[simp] theorem setResend_ibuf (v : Bool) : (s.setResend v).ibuf = s.ibuf := rfl
@[simp] theorem setResend_obuf (v : Bool) : (s.setResend v).obuf = s.obuf := rfl
@[simp] theorem setResend_trace (v : Bool) : (s.setResend v).trace = s.trace := rfl
@[simp] theorem setResend_past (v : Bool) : (s.setResend v).past = s.past := rfl
@[simp] theorem setResend_par (v : Bool) : (s.setResend v).par = s.par := rfl
@[simp] theorem setResend_line (v : Bool) : (s.setResend v).line = s.line := rfl
@[simp] theorem setResend_rx (v : Bool) : (s.setResend v).rx = s.rx := rfl
@[simp] theorem setResend_draws (v : Bool) : (s.setResend v).draws = s.draws := rfl
@[simp] theorem setResend_silent (v : Bool) : (s.setResend v).silent = s.silent := rfl
@[simp] theorem setResend_inputs (v : Bool) : (s.setResend v).inputs = s.inputs := rfl

@[simp] theorem noteMatch_cfg (o : Nat) : (s.noteMatch o).cfg = s.cfg := rfl
@[simp] theorem noteMatch_fsm (o : Nat) : (s.noteMatch o).fsm = s.fsm := rfl
@[simp] theorem noteMatch_cmd (o : Nat) : (s.noteMatch o).cmd = s.cmd := rfl
@[simp] theorem noteMatch_res (o : Nat) : (s.noteMatch o).res = s.res := rfl
@[simp] theorem noteMatch_resValid (o : Nat) : (s.noteMatch o).resValid = s.resValid := rfl
@[simp] theorem noteMatch_txf (o : Nat) : (s.noteMatch o).txf = s.txf := rfl
@[simp] theorem noteMatch_win (o : Nat) : (s.noteMatch o).win = s.win := rfl
@[simp] theorem noteMatch_part (o : Nat) : (s.noteMatch o).part = s.part := rfl
@[simp] theorem noteMatch_ibuf (o : Nat) : (s.noteMatch o).ibuf = s.ibuf := rfl
@[simp] theorem noteMatch_obuf (o : Nat) : (s.noteMatch o).obuf = s.obuf := rfl
@[simp] theorem noteMatch_trace (o : Nat) : (s.noteMatch o).trace = s.trace := rfl
@[simp] theorem noteMatch_past (o : Nat) : (s.noteMatch o).past = s.past := rfl
@[simp] theorem noteMatch_par (o : Nat) : (s.noteMatch o).par = s.par := rfl
@[simp] theorem noteMatch_line (o : Nat) : (s.noteMatch o).line = s.line := rfl
@[simp] theorem noteMatch_rx (o : Nat) : (s.noteMatch o).rx = s.rx := rfl
@[simp] theorem noteMatch_draws (o : Nat) : (s.noteMatch o).draws = s.draws := rfl
@[simp] theorem noteMatch_silent (o : Nat) : (s.noteMatch o).silent = s.silent := rfl
@[simp] theorem noteMatch_inputs (o : Nat) : (s.noteMatch o).inputs = s.inputs := rfl

@[simp] theorem clearRecv_cfg : s.clearRecv.cfg = s.cfg := rfl
@[simp] theorem clearRecv_fsm : s.clearRecv.fsm = s.fsm := rfl
@[simp] theorem clearRecv_cmd : s.clearRecv.cmd = s.cmd := rfl
@[simp] theorem clearRecv_res : s.clearRecv.res = s.res := rfl
@[simp] theorem clearRecv_resValid : s.clearRecv.resValid = s.resValid := rfl
@[simp] theorem clearRecv_txf : s.clearRecv.txf = s.txf := rfl
@[simp] theorem clearRecv_win : s.clearRecv.win = s.win := rfl
@[simp] theorem clearRecv_part : s.clearRecv.part = s.part := rfl
@[simp] theorem clearRecv_ibuf : s.clearRecv.ibuf = s.ibuf := rfl
@[simp] theorem clearRecv_obuf : s.clearRecv.obuf = s.obuf := rfl
@[simp] theorem clearRecv_trace : s.clearRecv.trace = s.trace := rfl
@[simp] theorem clearRecv_past : s.clearRecv.past = s.past := rfl
@[simp] theorem clearRecv_par : s.clearRecv.par = s.par := rfl
@[simp] theorem clearRecv_line : s.clearRecv.line = s.line := rfl
@[simp] theorem clearRecv_rx : s.clearRecv.rx = s.rx := rfl
@[simp] theorem clearRecv_draws : s.clearRecv.draws = s.draws := rfl
@[simp] theorem clearRecv_silent : s.clearRecv.silent = s.silent := rfl
@[simp] theorem clearRecv_inputs : s.clearRecv.inputs = s.inputs := rfl

end Sys2Proof.Machine.State
end

