-- ==== Sys2Proof/Laws/Link.lean ====
section
/-! SUPPORT. The bounds of the parameters, and what sending and receiving a run of bytes does. -/

namespace Sys2Proof

theorem Params.payloadSize_pos (p : Params) : 1 ≤ p.payloadSize := Nat.succ_pos _

theorem Params.payloadSize_le (p : Params) : p.payloadSize ≤ 251 := Nat.succ_le_of_lt p.payload.isLt

end Sys2Proof

namespace Sys2Proof.Machine.State

/-- Sending bytes appends their TX events and does nothing else. -/
theorem sendBytes_eq (s : State) (bs : List Byte) :
    s.sendBytes bs = { s with trace := s.trace ++ bs.map .tx } := by
  induction bs generalizing s with
  | nil => simp [sendBytes]
  | cons b bs ih => simp [sendBytes, ih, linkSendByte, record]

/-- The first byte the link answers with, and the state its answer leaves. -/
theorem linkBytes_succ (s : State) (n : Nat) :
    s.linkBytes (n + 1) = s.linkRecvByte.1 :: s.linkRecvByte.2.linkBytes n := by
  unfold linkBytes linkRecvByte
  cases hl : s.line with
  | cons b rest =>
    simp [record, show n + 1 - (rest.length + 1 + s.rx.length) = n - (rest.length + s.rx.length) by omega]
  | nil =>
    cases h : s.rx with
    | cons b rest => simp [record]
    | nil =>
      simp only [List.take_nil, List.nil_append, List.length_nil, Nat.sub_zero, Nat.add_zero, record]
      rw [List.range_succ_eq_map, List.map_cons, List.map_map]
      simp only [Nat.add_zero, List.cons.injEq, true_and, Function.comp_def]
      exact List.map_congr_left fun i _ => by rw [show s.draws + 1 + i = s.draws + (i + 1) by omega]

@[simp] theorem length_linkBytes (s : State) (n : Nat) : (s.linkBytes n).length = n := by
  simp only [linkBytes, List.length_append, List.length_take, List.length_map, List.length_range]
  omega

/-- Receiving `n` bytes: the bytes, and what the state and the trace become. -/
theorem recvBytes_eq (s : State) (n : Nat) :
    s.recvBytes n = (s.linkBytes n,
      { s with line := s.line.drop n, rx := s.rx.drop (n - s.line.length)
               draws := s.draws + (n - (s.line.length + s.rx.length))
               trace := s.trace ++ (s.linkBytes n).map .rx }) := by
  induction n generalizing s with
  | zero => simp [recvBytes, linkBytes]
  | succ n ih =>
    rw [linkBytes_succ, recvBytes]
    simp only [ih]
    refine Prod.ext rfl ?_
    unfold linkRecvByte
    cases hl : s.line with
    | cons b rest =>
    simp [record, show n + 1 - (rest.length + 1 + s.rx.length) = n - (rest.length + s.rx.length) by omega]
    | nil =>
      cases h : s.rx with
      | cons b rest => simp [record]
      | nil => simp [record]; omega

/-- What is received in two runs is what is received in one. -/
theorem linkBytes_add (s : State) (n m : Nat) : s.linkBytes (n + m) = s.linkBytes n ++ (s.recvBytes n).2.linkBytes m := by
  induction n generalizing s with
  | zero => rw [Nat.zero_add]; simp [recvBytes, linkBytes]
  | succ n ih =>
    rw [show n + 1 + m = (n + m) + 1 by omega, linkBytes_succ, ih, linkBytes_succ]
    rfl

theorem recvBytes_add (s : State) (n m : Nat) : (s.recvBytes (n + m)).2 = ((s.recvBytes n).2.recvBytes m).2 := by
  induction n generalizing s with
  | zero => rw [Nat.zero_add]; rfl
  | succ n ih =>
    rw [show n + 1 + m = (n + m) + 1 by omega]
    exact ih _

end Sys2Proof.Machine.State
end

