-- ==== Sys2Proof/Laws/Codec.lean ====
section
/-! SUPPORT. The lengths of what the codec builds, the bounds of a packet count (43_send.md R101), and the tests of
one scan offset as one condition (42_sync.md R92 to R95). -/

namespace Sys2Proof.Machine

@[simp] theorem length_encodeData (d src : Byte) (pl : List Byte) : (encodeData d src pl).length = pl.length + 4 := by
  simp [encodeData, withChecksum]

@[simp] theorem length_encodeAck (p : Nat) (d src e : Byte) : (encodeAck p d src e).length = p + 4 := by
  simp [encodeAck, withChecksum]

@[simp] theorem State.length_chunk (s : State) (size k : Nat) : (s.chunk size k).length = s.payloadSize := by
  simp [State.chunk]

theorem packetCount_pos {size p : Nat} (h : size ≠ 0) : 0 < packetCount size p := by
  rw [packetCount, if_neg h]
  exact Nat.succ_pos _

theorem packetCount_le (size p : Nat) : packetCount size p ≤ size := by
  unfold packetCount
  split
  · exact Nat.zero_le _
  · have h : (size - 1) / p ≤ size - 1 := Nat.div_le_self _ _
    generalize (size - 1) / p = q at *
    omega

/-- The padded message is less than one packet longer than the message. -/
theorem packetCount_mul_lt {size p : Nat} (h : size ≠ 0) : packetCount size p * p < size + p := by
  rw [packetCount, if_neg h, Nat.add_mul, Nat.one_mul]
  have := Nat.div_mul_le_self (size - 1) p
  omega

theorem State.opSize_le (s : State) : s.opSize ≤ 255 := by
  have := s.par.payloadSize_le
  have := s.cmd.n.isLt
  unfold State.opSize
  split
  · simp only [State.payloadSize_eq]; omega
  · omega

/-- The packet count fits its register. -/
theorem State.pkts_toNat (s : State) :
    (BitVec.ofNat 8 (packetCount s.opSize s.payloadSize)).toNat = packetCount s.opSize s.payloadSize := by
  have := s.opSize_le
  have := packetCount_le s.opSize s.payloadSize
  rw [BitVec.toNat_ofNat, Nat.mod_eq_of_lt (by omega)]

theorem State.opSize_send {s : State} (h : s.cmd.op = 0xA) : s.opSize = s.cmd.n.toNat := by
  simp [State.opSize, State.isRecvack, h]

theorem State.opBlk_send {s : State} (h : s.cmd.op = 0xA) : s.opBlk = s.cmd.blk := by
  simp [State.opBlk, State.isRecvack, h]

/-- One offset of a scan: the three tests together, and what a passing offset answers. -/
theorem syncAt_eq (p : Nat) (w : List Byte) (addr : Byte) (ako : Bool) (o : Nat) :
    syncAt p w addr ako o =
      if crc8 (slice w o (p + 3)) = byteAt w (o + (p + 3)) ∧ byteAt w o = addr ∧
          byteAt w (o + 2) = (if ako then 0x02 else 0x01) then
        (if ako then .ack o (byteAt w (o + (3 + p - 1))) else .data o)
      else .none := by
  unfold syncAt isCandidate kindAck kindData ackEchoOffset
  by_cases h1 : crc8 (slice w o (p + 3)) = byteAt w (o + (p + 3))
  · by_cases h2 : byteAt w o = addr
    · cases ako
      · by_cases h3 : byteAt w (o + 2) = 1
        · simp [h1, h2, h3]
        · by_cases h4 : byteAt w (o + 2) = 2 <;> simp_all
      · by_cases h3 : byteAt w (o + 2) = 2
        · simp [h1, h2, h3]
        · by_cases h4 : byteAt w (o + 2) = 1 <;> simp_all
    · simp [h1, h2]
  · simp [h1]

end Sys2Proof.Machine
end

