-- ==== Sys2Proof/Laws/Control.lean ====
section
/-! SUPPORT. What a control transfer can do, said once: the parts no transfer touches, how results and the trace
change, and the induction over a run. -/

namespace Sys2Proof.Machine.State

variable (s : State)

/-- A capture changes WIN, the environment and the trace, and nothing else. -/
theorem capture_eq : s.capture = { s with
    win := s.nextWindow, line := s.line.drop s.windowRest, rx := s.rx.drop (s.windowRest - s.line.length)
    draws := s.draws + (s.windowRest - (s.line.length + s.rx.length))
    trace := s.trace ++ s.nextBytes.map .rx } := by
  unfold capture
  rw [recvBytes_eq]
  rfl

theorem transmit_eq : s.transmit = { s with trace := s.trace ++ (s.txf.drop s.part).map .tx } := sendBytes_eq s _

/-- What no control transfer of a SEND, RECV or RECVACK changes: the configuration, the latched word, IBUF, the link
events before the last reset, the parameters, whether the link answers and the coming inputs. -/
structure SameOutside (s t : State) : Prop where
  cfg : t.cfg = s.cfg
  cmd : t.cmd = s.cmd
  ibuf : t.ibuf = s.ibuf
  past : t.past = s.past
  par : t.par = s.par
  silent : t.silent = s.silent
  inputs : t.inputs = s.inputs

theorem SameOutside.refl : SameOutside s s := ⟨rfl, rfl, rfl, rfl, rfl, rfl, rfl⟩

theorem SameOutside.trans {s t u : State} (h : SameOutside s t) (h' : SameOutside t u) : SameOutside s u :=
  ⟨h'.cfg.trans h.cfg, h'.cmd.trans h.cmd, h'.ibuf.trans h.ibuf, h'.past.trans h.past, h'.par.trans h.par,
    h'.silent.trans h.silent, h'.inputs.trans h.inputs⟩

theorem buildPacket_sameOutside : SameOutside s s.buildPacket := ⟨rfl, rfl, rfl, rfl, rfl, rfl, rfl⟩

theorem nextPacket_sameOutside : SameOutside s s.nextPacket := by
  unfold nextPacket
  split <;> exact ⟨rfl, rfl, rfl, rfl, rfl, rfl, rfl⟩

theorem capture_sameOutside : SameOutside s s.capture := by rw [capture_eq]; exact ⟨rfl, rfl, rfl, rfl, rfl, rfl, rfl⟩

theorem transmit_sameOutside : SameOutside s s.transmit := by rw [transmit_eq]; exact ⟨rfl, rfl, rfl, rfl, rfl, rfl, rfl⟩

theorem afterFirst_sameOutside : SameOutside s s.afterFirst := by
  unfold afterFirst
  split
  · exact ⟨rfl, rfl, rfl, rfl, rfl, rfl, rfl⟩
  · exact nextPacket_sameOutside s

theorem recvHead_sameOutside : SameOutside s s.recvHead := by
  unfold recvHead
  split <;> exact ⟨rfl, rfl, rfl, rfl, rfl, rfl, rfl⟩

theorem recvNext_sameOutside : SameOutside s s.recvNext := by
  unfold recvNext
  split
  · exact recvHead_sameOutside s
  · exact SameOutside.trans (t := s.setK (s.work.k + 1)) ⟨rfl, rfl, rfl, rfl, rfl, rfl, rfl⟩ (recvHead_sameOutside _)

theorem recvCase_sameOutside (r : SyncResult) : SameOutside s (s.recvCase r) := by
  unfold recvCase
  split
  · rename_i o
    unfold afterAppend
    split
    · exact SameOutside.trans (t := s.recvAppend o) ⟨rfl, rfl, rfl, rfl, rfl, rfl, rfl⟩ (recvHead_sameOutside _)
    · exact ⟨rfl, rfl, rfl, rfl, rfl, rfl, rfl⟩
  · exact ⟨rfl, rfl, rfl, rfl, rfl, rfl, rfl⟩
  · exact recvNext_sameOutside s

theorem tickSending_sameOutside : SameOutside s s.tickSending := by
  unfold tickSending
  split
  · exact (transmit_sameOutside s).trans ⟨rfl, rfl, rfl, rfl, rfl, rfl, rfl⟩
  · exact ((transmit_sameOutside s).trans (u := s.transmit.linkDelay s.par.settleUnits)
      ⟨rfl, rfl, rfl, rfl, rfl, rfl, rfl⟩).trans (afterFirst_sameOutside _)

theorem tickAwaitingAck_sameOutside : SameOutside s s.tickAwaitingAck := by
  have h : SameOutside s (s.capture.scanned s.cfg.myaddr true) :=
    (capture_sameOutside s).trans ⟨rfl, rfl, rfl, rfl, rfl, rfl, rfl⟩
  unfold tickAwaitingAck judgeAttempt
  split
  · exact h.trans ⟨rfl, rfl, rfl, rfl, rfl, rfl, rfl⟩
  · split <;> exact h.trans ⟨rfl, rfl, rfl, rfl, rfl, rfl, rfl⟩

theorem tickReceiving_sameOutside : SameOutside s s.tickReceiving :=
  ((capture_sameOutside s).trans (u := s.capture.scanned s.cfg.myaddr s.opAko)
    ⟨rfl, rfl, rfl, rfl, rfl, rfl, rfl⟩).trans (recvCase_sameOutside _ _)

theorem syncCase_sameOutside (r : SyncResult) : SameOutside s (s.syncCase r) := by
  cases r <;> exact ⟨rfl, rfl, rfl, rfl, rfl, rfl, rfl⟩

/-- A command in Unit changes none of them but the configuration, which a setter writes. -/
theorem finishUnit_sameOutside : SameOutside { s with cfg := s.finishUnit.cfg } s.finishUnit := by
  have hs : SameOutside s s.finishSync :=
    SameOutside.trans (t := s.loadWin.scanned s.cmd.a s.cmd.ako) ⟨rfl, rfl, rfl, rfl, rfl, rfl, rfl⟩
      (syncCase_sameOutside _ _)
  unfold finishUnit
  split
  case h_9 => exact ⟨rfl, hs.cmd, hs.ibuf, hs.past, hs.par, hs.silent, hs.inputs⟩
  all_goals exact ⟨rfl, rfl, rfl, rfl, rfl, rfl, rfl⟩

/-- No control transfer outside Unit changes them. -/
theorem tick_sameOutside (hu : s.fsm ≠ .unit) : SameOutside s s.tick := by
  unfold tick
  split
  · exact .refl s
  · exact tickSending_sameOutside s
  · exact tickAwaitingAck_sameOutside s
  · exact nextPacket_sameOutside s
  · exact ⟨rfl, rfl, rfl, rfl, rfl, rfl, rfl⟩
  · exact ⟨rfl, rfl, rfl, rfl, rfl, rfl, rfl⟩
  · exact tickReceiving_sameOutside s
  · exact (transmit_sameOutside s).trans (recvNext_sameOutside _)
  · rename_i h; exact absurd h hu

/-! ### A transfer from each control state -/

theorem tick_idle {s : State} (h : s.fsm = .idle) : s.tick = s := by unfold tick; rw [h]
theorem tick_sending {s : State} (h : s.fsm = .sending) : s.tick = s.tickSending := by unfold tick; rw [h]
theorem tick_awaitingAck {s : State} (h : s.fsm = .awaitingAck) : s.tick = s.tickAwaitingAck := by unfold tick; rw [h]
theorem tick_acked {s : State} (h : s.fsm = .acked) : s.tick = s.nextPacket := by unfold tick; rw [h]
theorem tick_retrying {s : State} (h : s.fsm = .retrying) : s.tick = s.tickRetrying := by unfold tick; rw [h]
theorem tick_timedOut {s : State} (h : s.fsm = .timedOut) : s.tick = s.tickTimedOut := by unfold tick; rw [h]
theorem tick_receiving {s : State} (h : s.fsm = .receiving) : s.tick = s.tickReceiving := by unfold tick; rw [h]
theorem tick_replying {s : State} (h : s.fsm = .replying) : s.tick = s.tickReplying := by unfold tick; rw [h]
theorem tick_unit {s : State} (h : s.fsm = .unit) : s.tick = s.finishUnit := by unfold tick; rw [h]

/-- A command in Unit completes in its one transfer. -/
theorem finishUnit_fsm : s.finishUnit.fsm = .idle := by
  unfold finishUnit finishSync syncCase
  split
  case h_9 => split <;> rfl
  all_goals rfl

theorem nextPacket_fsm : s.nextPacket.fsm = .sending ∨ s.nextPacket.fsm = .idle := by
  unfold nextPacket
  split
  · exact Or.inl rfl
  · exact Or.inr rfl

theorem recvHead_fsm : s.recvHead.fsm = .receiving ∨ s.recvHead.fsm = .idle := by
  unfold recvHead
  split
  · exact Or.inr rfl
  · exact Or.inl rfl

theorem recvNext_fsm : s.recvNext.fsm = .receiving ∨ s.recvNext.fsm = .idle := by
  unfold recvNext
  split <;> exact recvHead_fsm _

theorem recvCase_fsm (r : SyncResult) :
    (s.recvCase r).fsm = .receiving ∨ (s.recvCase r).fsm = .replying ∨ (s.recvCase r).fsm = .idle := by
  unfold recvCase
  split
  · unfold afterAppend
    split
    · exact (recvHead_fsm _).imp_right Or.inr
    · exact Or.inr (Or.inl rfl)
  · exact Or.inr (Or.inr rfl)
  · exact (recvNext_fsm s).imp_right Or.inr

/-- No control transfer enters Unit. -/
theorem tick_ne_unit : s.tick.fsm ≠ .unit := by
  unfold tick
  split
  · simp_all
  · unfold tickSending
    split
    · simp
    · unfold afterFirst
      split
      · simp
      · rcases nextPacket_fsm (s.transmit.linkDelay s.par.settleUnits) with h | h <;> simp [h]
  · unfold tickAwaitingAck judgeAttempt
    repeat' split
    all_goals simp
  · rcases nextPacket_fsm s with h | h <;> simp [h]
  · simp [tickRetrying]
  · simp [tickTimedOut]
  · unfold tickReceiving
    rcases recvCase_fsm (s.capture.scanned s.cfg.myaddr s.opAko) (s.capture.scanResult s.cfg.myaddr s.opAko)
      with h | h | h <;> simp [h]
  · unfold tickReplying
    rcases recvNext_fsm s.transmit with h | h <;> simp [h]
  · simp [finishUnit_fsm]

/-! ### Runs -/

theorem run_idle (n : Nat) (h : s.fsm = .idle) : run n s = s := by
  cases n <;> simp [run, h]

theorem run_awaits (n : Nat) (h : s.awaitsLink = true) : run n s = s := by
  cases n <;> simp [run, h]

theorem run_tick {n : Nat} (h : s.fsm ≠ .idle) (h' : s.awaitsLink = false) : run (n + 1) s = run n s.tick := by
  simp [run, h, h']

/-- Where the link answers, or is not needed, a transfer is made. -/
theorem transfer_eq {s : State} (h : s.stalled = false) : s.transfer = s.tick := by
  simp [transfer, h]

theorem transfer_stalled {s : State} (h : s.stalled = true) : s.transfer = s := by
  simp [transfer, h]

theorem stalled_of_answering {s : State} (h : s.silent = false) : s.stalled = false := by
  simp [stalled, h]

/-- What a transfer and waiting keep, what a step of a running command does keeps. -/
theorem transfer_induction {Q : State → Prop} (h : Q s) (h' : Q s.tick) : Q s.transfer := by
  unfold transfer
  split
  · exact h
  · exact h'

/-- What every transfer of a command in execution keeps, a run keeps. -/
theorem run_induction {Q : State → Prop} (step : ∀ s : State, Q s → s.fsm ≠ .idle → Q s.tick)
    (n : Nat) {s : State} (h : Q s) : Q (run n s) := by
  induction n generalizing s with
  | zero => exact h
  | succ n ih =>
    unfold run
    split
    · exact h
    · rename_i hs
      exact ih (step s h fun hi => hs (Or.inl hi))

/-- A run changes nothing a transfer does not. -/
theorem run_sameOutside (hu : s.fsm ≠ .unit) (n : Nat) : SameOutside s (run n s) :=
  (run_induction (Q := fun t => SameOutside s t ∧ t.fsm ≠ .unit)
    (fun t h _ => ⟨h.1.trans (tick_sameOutside t h.2), tick_ne_unit t⟩) n ⟨.refl s, hu⟩).1

end Sys2Proof.Machine.State
end

