-- ==== Sys2Proof/Laws/Command.lean ====
section
/-! SUPPORT. What a command and a control transfer do to the parts every command shares: the parts outside the
command, the result registers and the trace. -/

namespace Sys2Proof.Machine.State

variable (s : State)

theorem startSend_sameOutside : SameOutside s s.startSend := by
  unfold startSend
  split <;> exact ⟨rfl, rfl, rfl, rfl, rfl, rfl, rfl⟩

theorem startRecv_sameOutside : SameOutside s s.startRecv :=
  SameOutside.trans (t := s.dropLine.countPackets.clearRecv) ⟨rfl, rfl, rfl, rfl, rfl, rfl, rfl⟩ (recvHead_sameOutside _)

/-- Beginning a command changes nothing outside it. -/
theorem startCommand_sameOutside : SameOutside s s.startCommand := by
  unfold startCommand
  split
  · exact startSend_sameOutside s
  · exact startRecv_sameOutside s
  · exact startRecv_sameOutside s
  · exact ⟨rfl, rfl, rfl, rfl, rfl, rfl, rfl⟩

theorem runCommand_sameOutside (hu : s.fsm ≠ .unit) : SameOutside s s.runCommand := run_sameOutside s hu _

/-- From `s` to `t` the results changed at most by a completion that is not ILL, and the trace has only grown. -/
structure Progressed (s t : State) : Prop where
  res : t.res = s.res ∨ (t.fsm = .idle ∧ t.resValid = true ∧ t.res.ill = false)
  trace : ∃ new, t.trace = s.trace ++ new

variable {s}

theorem Progressed.of_eq {t : State} (h : t.res = s.res) (h' : t.trace = s.trace) : Progressed s t :=
  ⟨Or.inl h, [], by simp [h']⟩

theorem Progressed.complete (r : Result) (h : r.ill = false) : Progressed s (s.complete r) :=
  ⟨Or.inr ⟨rfl, rfl, h⟩, [], by simp⟩

theorem Progressed.trans {t u : State} (h : Progressed s t) (ht : t.res = s.res) (h' : Progressed t u) :
    Progressed s u := by
  obtain ⟨n, hn⟩ := h.trace
  obtain ⟨m, hm⟩ := h'.trace
  exact ⟨h'.res.imp_left (·.trans ht), n ++ m, by rw [hm, hn, List.append_assoc]⟩

theorem Progressed.after {t u : State} (hu : Progressed t u) (h : t.res = s.res) (h' : t.trace = s.trace) :
    Progressed s u :=
  (Progressed.of_eq h h').trans h hu

variable (s)

theorem recvHead_progressed : Progressed s s.recvHead := by
  unfold recvHead
  split
  · exact .complete _ rfl
  · exact .of_eq rfl rfl

theorem recvNext_progressed : Progressed s s.recvNext := by
  unfold recvNext
  split
  · exact recvHead_progressed s
  · exact (recvHead_progressed _).after rfl rfl

theorem nextPacket_progressed : Progressed s s.nextPacket := by
  unfold nextPacket
  split
  · exact .of_eq rfl rfl
  · exact .complete _ rfl

theorem recvCase_progressed (r : SyncResult) : Progressed s (s.recvCase r) := by
  unfold recvCase
  split
  · unfold afterAppend
    split
    · exact (recvHead_progressed _).after rfl rfl
    · exact .of_eq rfl rfl
  · exact .complete _ rfl
  · exact recvNext_progressed s

theorem capture_progressed : Progressed s s.capture := by rw [capture_eq]; exact ⟨Or.inl rfl, _, rfl⟩

theorem transmit_progressed : Progressed s s.transmit := by rw [transmit_eq]; exact ⟨Or.inl rfl, _, rfl⟩

/-- Every control transfer outside Unit. -/
theorem tick_progressed (hu : s.fsm ≠ .unit) : Progressed s s.tick := by
  have hc : s.capture.res = s.res := by rw [capture_eq]
  have ht : s.transmit.res = s.res := by rw [transmit_eq]
  unfold tick
  split
  · exact .of_eq rfl rfl
  · unfold tickSending
    split
    · exact (transmit_progressed s).trans ht (.of_eq rfl rfl)
    · have hd : Progressed s.transmit (s.transmit.linkDelay s.par.settleUnits) := ⟨Or.inl rfl, _, rfl⟩
      refine (transmit_progressed s).trans ht (hd.trans rfl ?_)
      unfold afterFirst
      split
      · exact .of_eq rfl rfl
      · exact nextPacket_progressed _
  · refine (capture_progressed s).trans hc ?_
    unfold tickAwaitingAck judgeAttempt
    split
    · exact .of_eq rfl rfl
    · split <;> exact .of_eq rfl rfl
  · exact nextPacket_progressed s
  · exact ⟨Or.inl rfl, _, rfl⟩
  · exact .complete _ rfl
  · exact (capture_progressed s).trans hc ((recvCase_progressed _ _).after rfl rfl)
  · exact (transmit_progressed s).trans ht (recvNext_progressed _)
  · rename_i h; exact absurd h hu

/-- A command in Unit completes, with no link event. -/
theorem finishUnit_completes :
    s.finishUnit.fsm = .idle ∧ s.finishUnit.resValid = true ∧ s.finishUnit.trace = s.trace := by
  refine ⟨finishUnit_fsm s, ?_⟩
  unfold finishUnit finishSync syncCase
  split
  case h_9 => split <;> exact ⟨rfl, rfl⟩
  all_goals exact ⟨rfl, rfl⟩

/-- Every run. -/
theorem run_progressed (hu : s.fsm ≠ .unit) (n : Nat) : Progressed s (run n s) := by
  refine (run_induction (Q := fun t => Progressed s t ∧ t.fsm ≠ .unit) (fun t h hf => ⟨h.1.trans ?_
    (tick_progressed t h.2), tick_ne_unit t⟩) n ⟨.of_eq rfl rfl, hu⟩).1
  exact h.1.res.resolve_right fun hi => hf hi.1

end Sys2Proof.Machine.State
end

