-- ==== Sys2Proof/Laws/Encoding.lean ====
section
/-! SUPPORT. The fields of a packed command word, and a word's bytes put together again. -/

namespace Sys2Proof

variable (op : BitVec 4) (blk ako : Bool) (a b n : Byte)

@[simp] theorem fieldOp_packCommand : fieldOp (packCommand op blk ako a b n) = op := by
  refine BitVec.eq_of_getLsbD_eq fun i hi => ?_
  simp [fieldOp, packCommand, hi, show i < 32 by omega, show i < 5 by omega, show i < 8 by omega,
    show i < 16 by omega, show i < 24 by omega]

@[simp] theorem fieldBlk_packCommand : fieldBlk (packCommand op blk ako a b n) = blk := by
  simp [fieldBlk, packCommand]

@[simp] theorem fieldAko_packCommand : fieldAko (packCommand op blk ako a b n) = ako := by
  simp [fieldAko, packCommand]

@[simp] theorem fieldA_packCommand : fieldA (packCommand op blk ako a b n) = a := by
  refine BitVec.eq_of_getLsbD_eq fun i hi => ?_
  interval_cases i <;> simp [fieldA, packCommand, BitVec.getLsbD_of_ge]

@[simp] theorem fieldB_packCommand : fieldB (packCommand op blk ako a b n) = b := by
  refine BitVec.eq_of_getLsbD_eq fun i hi => ?_
  interval_cases i <;> simp [fieldB, packCommand, BitVec.getLsbD_of_ge]

@[simp] theorem fieldN_packCommand : fieldN (packCommand op blk ako a b n) = n := by
  refine BitVec.eq_of_getLsbD_eq fun i hi => ?_
  interval_cases i <;> simp [fieldN, packCommand, BitVec.getLsbD_of_ge]

theorem wordOfBytes_bytesOfWord (w : CmdWord) :
    wordOfBytes (w.extractLsb' 0 8) (w.extractLsb' 8 8) (w.extractLsb' 16 8) (w.extractLsb' 24 8) = w := by
  refine BitVec.eq_of_getLsbD_eq fun i hi => ?_
  interval_cases i <;> simp [wordOfBytes]

end Sys2Proof
end

