-- ==== Sys2Proof/Laws/Inputs.lean ====
section
/-! SUPPORT. No control transfer reads or changes the coming actions: it commutes with putting others in their place. -/

namespace Sys2Proof.Machine.State

/-- The coming actions play no part in `f`. -/
def IgnoresInputs (f : State → State) : Prop :=
  ∀ (s : State) (r : List Input), f { s with inputs := r } = { f s with inputs := r }

theorem transmit_ignores : IgnoresInputs transmit := fun s r => by simp only [transmit_eq]

theorem capture_ignores : IgnoresInputs capture := fun s r => by simp only [capture_eq]; rfl

theorem nextPacket_ignores : IgnoresInputs nextPacket := by
  intro s r
  unfold nextPacket
  by_cases h : s.work.k.toNat + 1 < s.work.pkts.toNat
  · rw [if_pos h, if_pos h]
    rfl
  · rw [if_neg h, if_neg h]
    rfl

theorem recvHead_ignores : IgnoresInputs recvHead := by
  intro s r
  unfold recvHead
  show (if s.recvDone = true then _ else _) = _
  by_cases h : s.recvDone = true
  · rw [if_pos h, if_pos h]
    rfl
  · rw [if_neg h, if_neg h]
    rfl

theorem recvNext_ignores : IgnoresInputs recvNext := by
  intro s r
  unfold recvNext
  show (if s.opBlk = true then _ else _) = _
  by_cases h : s.opBlk = true
  · rw [if_pos h, if_pos h]; exact recvHead_ignores s r
  · rw [if_neg h, if_neg h]; exact recvHead_ignores (s.setK _) r

theorem recvCase_ignores (x : SyncResult) : IgnoresInputs (fun s => s.recvCase x) := by
  intro s r
  cases x with
  | none => exact recvNext_ignores s r
  | ack => rfl
  | data o =>
    simp only [recvCase]
    unfold afterAppend
    show (if (s.recvAppend o).opBlk = true then _ else _) = _
    by_cases h : (s.recvAppend o).opBlk = true
    · rw [if_pos h, if_pos h]; exact recvHead_ignores (s.recvAppend o) r
    · rw [if_neg h, if_neg h]
      rfl

theorem finishSync_ignores : IgnoresInputs finishSync := by
  intro s r
  unfold finishSync
  cases h : s.loadWin.scanResult s.cmd.a s.cmd.ako <;>
    (rw [show (State.loadWin { s with inputs := r }).scanResult s.cmd.a s.cmd.ako = _ from h]
     rfl)

theorem finishUnit_ignores : IgnoresInputs finishUnit := by
  intro s r
  unfold finishUnit
  dsimp only
  generalize s.cmd.op.toNat = n
  split
  case h_9 => exact finishSync_ignores s r
  all_goals rfl

theorem tick_ignores : IgnoresInputs tick := by
  intro s r
  obtain ⟨f, h⟩ : ∃ f, s.fsm = f := ⟨_, rfl⟩
  cases f with
  | idle => rw [tick_idle h, tick_idle (s := { s with inputs := r }) h]
  | sending =>
    rw [tick_sending h, tick_sending (s := { s with inputs := r }) h]
    unfold tickSending
    by_cases hre : s.prog.resend = true
    · rw [if_pos hre, if_pos hre, transmit_ignores]; rfl
    · rw [if_neg hre, if_neg hre, transmit_ignores]
      unfold afterFirst
      show (if (s.transmit.linkDelay s.par.settleUnits).opBlk = true then _ else _) = _
      by_cases hb : (s.transmit.linkDelay s.par.settleUnits).opBlk = true
      · rw [if_pos hb, if_pos hb]; rfl
      · rw [if_neg hb, if_neg hb]; exact nextPacket_ignores (s.transmit.linkDelay _) r
  | awaitingAck =>
    rw [tick_awaitingAck h, tick_awaitingAck (s := { s with inputs := r }) h]
    unfold tickAwaitingAck
    rw [capture_ignores]
    show State.judgeAttempt { s.capture.scanned s.cfg.myaddr true with inputs := r }
      (s.capture.scanResult s.cfg.myaddr true) = _
    generalize s.capture.scanned s.cfg.myaddr true = c
    generalize s.capture.scanResult s.cfg.myaddr true = x
    unfold judgeAttempt
    have : State.ackMatches { c with inputs := r } x = c.ackMatches x := by cases x <;> rfl
    rw [this]
    by_cases h1 : c.ackMatches x = true
    · rw [if_pos h1, if_pos h1]; rfl
    · rw [if_neg h1, if_neg h1]
      by_cases h2 : c.cfg.tmoatt.toNat < c.work.attempts.toNat
      · rw [if_pos h2, if_pos h2]; rfl
      · rw [if_neg h2, if_neg h2]; rfl
  | acked => rw [tick_acked h, tick_acked (s := { s with inputs := r }) h]; exact nextPacket_ignores s r
  | retrying => rw [tick_retrying h, tick_retrying (s := { s with inputs := r }) h]; rfl
  | timedOut => rw [tick_timedOut h, tick_timedOut (s := { s with inputs := r }) h]; rfl
  | receiving =>
    rw [tick_receiving h, tick_receiving (s := { s with inputs := r }) h]
    unfold tickReceiving
    rw [capture_ignores]
    exact recvCase_ignores (s.capture.scanResult s.cfg.myaddr s.opAko) (s.capture.scanned s.cfg.myaddr s.opAko) r
  | replying =>
    rw [tick_replying h, tick_replying (s := { s with inputs := r }) h]
    unfold tickReplying
    rw [transmit_ignores]; exact recvNext_ignores s.transmit r
  | unit => rw [tick_unit h, tick_unit (s := { s with inputs := r }) h]; exact finishUnit_ignores s r

theorem transfer_ignores : IgnoresInputs transfer := by
  intro s r
  unfold transfer
  show (if s.stalled = true then _ else _) = _
  by_cases h : s.stalled = true
  · rw [if_pos h, if_pos h]
  · rw [if_neg h, if_neg h]
    exact tick_ignores s r

end Sys2Proof.Machine.State
end

