-- ==== Sys2Proof/Laws/Interrupted.lean ====
section
/-! SUPPORT. What a control transfer that reset cuts short or the link stalls can have done, said once. -/

namespace Sys2Proof.Machine.State

variable (s : State)

/-- What no part of a transfer changes of the parts that outlive a reset: IBUF, the link events before the last reset,
the parameters and the coming inputs; and the link events performed are not undone. -/
structure PartOf (s t : State) : Prop where
  ibuf : t.ibuf = s.ibuf
  past : t.past = s.past
  par : t.par = s.par
  inputs : t.inputs = s.inputs
  trace : ∃ new, t.trace = s.trace ++ new

theorem PartOf.refl : PartOf s s := ⟨rfl, rfl, rfl, rfl, [], by simp⟩

theorem sendBytes_partOf (bs : List Byte) : PartOf s (s.sendBytes bs) := by
  rw [sendBytes_eq]; exact ⟨rfl, rfl, rfl, rfl, _, rfl⟩

theorem captureAccesses_partOf (m : Nat) : PartOf s (s.captureAccesses m) := by
  rw [captureAccesses, recvBytes_eq]; exact ⟨rfl, rfl, rfl, rfl, _, rfl⟩

/-- The first accesses of every transfer. -/
theorem firstAccesses_partOf (m : Nat) : PartOf s (s.firstAccesses m) := by
  unfold firstAccesses
  split
  · exact .refl s
  · unfold sendingAccesses
    split
    · rw [transmit_eq]; exact ⟨rfl, rfl, rfl, rfl, _, List.append_assoc _ _ _⟩
    · exact sendBytes_partOf s _
  · exact captureAccesses_partOf s m
  · exact .refl s
  · split
    · exact .refl s
    · exact ⟨rfl, rfl, rfl, rfl, _, rfl⟩
  · exact .refl s
  · unfold receivingAccesses
    split
    · exact captureAccesses_partOf s m
    · rw [capture_eq]; exact ⟨rfl, rfl, rfl, rfl, _, rfl⟩
  · exact sendBytes_partOf s _
  · exact ⟨rfl, rfl, rfl, rfl, [], by simp⟩

/-- Reset before the first access has cut nothing. -/
theorem firstAccesses_zero : s.firstAccesses 0 = s := by
  unfold firstAccesses
  split <;> rfl

/-- What the link's answers leave alone while a transfer goes on: everything but the trace, the answers consumed, WIN and
the place in the transfer. -/
theorem goOn_eq (m : Nat) : ∃ new, s.goOn m = { s with
    trace := s.trace ++ new, line := (s.goOn m).line, rx := (s.goOn m).rx, draws := (s.goOn m).draws
    win := (s.goOn m).win, part := (s.goOn m).part } := by
  unfold goOn
  split
  case h_2 | h_8 => exact ⟨((s.txf.drop s.part).take m).map .tx, by rw [transmitPart, sendBytes_eq]⟩
  case h_3 | h_7 => exact ⟨(s.linkBytes m).map .rx, by rw [capturePart, recvBytes_eq]⟩
  all_goals exact ⟨[], by simp⟩

theorem fallSilent_eq (m : Nat) : ∃ new, s.fallSilent m = { s with
    trace := s.trace ++ new, line := (s.fallSilent m).line, rx := (s.fallSilent m).rx
    draws := (s.fallSilent m).draws, win := (s.fallSilent m).win, part := (s.fallSilent m).part, silent := true } := by
  unfold fallSilent
  split
  · exact ⟨[], by simp⟩
  · obtain ⟨new, h⟩ := s.goOn_eq (min m (s.requests - 1))
    exact ⟨new, by rw [h]⟩

/-- A transmission the link has stalled goes on where it stopped. -/
theorem transmit_transmitPart {m : Nat} :
    (s.transmitPart m).transmit = { s.transmit with part := s.part + m } := by
  rw [transmit_eq, transmit_eq, transmitPart, sendBytes_eq]
  simp only [List.append_assoc, ← List.map_append]
  rw [← List.drop_drop, List.take_append_drop]

/-- A capture the link has stalled goes on where it stopped. -/
theorem capture_capturePart {m : Nat} (hw : s.win.length = s.windowSize) (hp : s.part ≤ s.windowSize)
    (hm : m ≤ s.windowRest) :
    (s.capturePart m).capture = { s.capture with part := s.part + m } := by
  have hb : s.nextBytes = s.linkBytes m ++ (s.recvBytes m).2.linkBytes (s.windowRest - m) := by
    rw [nextBytes, ← linkBytes_add, Nat.add_sub_cancel' hm]
  have hr : (s.capturePart m).windowRest = s.windowRest - m := by
    rw [capturePart, recvBytes_eq]
    exact Nat.sub_add_eq ..
  have hn : (s.capturePart m).nextBytes = (s.recvBytes m).2.linkBytes (s.windowRest - m) := by
    rw [nextBytes, hr]; rfl
  have ht : (s.capturePart m).nextWindow = s.nextWindow := by
    rw [nextWindow, nextWindow, hn, hb, ← List.append_assoc]
    congr 1
    rw [capturePart, recvBytes_eq]
    refine List.take_left' ?_
    simp only [List.length_append, List.length_take, length_linkBytes]
    omega
  rw [capture_eq, capture_eq, ht, hn, hr, hb, capturePart, recvBytes_eq]
  simp only [List.drop_drop, List.length_drop, List.map_append, List.append_assoc, State.mk.injEq, true_and, and_true]
  refine ⟨?_, ?_, ?_⟩
  · congr 1; omega
  · congr 1; omega
  · omega

end Sys2Proof.Machine.State
end

