-- ==== Sys2Proof/Laws/Memory.lean ====
section
/-! SUPPORT. The buffer memories: read after write, every operation keeps the canonical form, and what a run of bytes
written or read is. -/

namespace Sys2Proof.Machine.Memory

theorem wfFrom_weaken {m : Memory} {lo hi : Nat} (h : lo ≤ hi) (hm : wfFrom hi m = true) : wfFrom lo m = true := by
  cases m with
  | nil => rfl
  | cons c m =>
    simp only [wfFrom, Bool.and_eq_true, decide_eq_true_eq] at hm ⊢
    exact ⟨⟨⟨by omega, hm.1.1.2⟩, hm.1.2⟩, hm.2⟩

/-- Below its first address a canonical memory lists nothing. -/
theorem read_below {m : Memory} {lo a : Nat} (hm : wfFrom lo m = true) (h : a < lo) : read m a = unlisted := by
  induction m generalizing lo with
  | nil => rfl
  | cons c m ih =>
    simp only [wfFrom, Bool.and_eq_true, decide_eq_true_eq] at hm
    rw [read, if_neg (by omega), ih hm.2 (by omega)]

theorem read_write_same {m : Memory} {lo : Nat} (a : Nat) (v : Byte) (hm : wfFrom lo m = true) :
    read (write m a v) a = v := by
  induction m generalizing lo with
  | nil => by_cases hv : v = unlisted <;> simp [write, read, hv]
  | cons c m ih =>
    obtain ⟨b, u⟩ := c
    simp only [wfFrom, Bool.and_eq_true, decide_eq_true_eq] at hm
    by_cases h1 : a < b
    · by_cases hv : v = unlisted
      · simp [write, read, h1, hv, Nat.ne_of_lt h1, read_below hm.2 (show a < b + 1 by omega)]
      · simp [write, read, h1, hv]
    · by_cases h2 : a = b
      · by_cases hv : v = unlisted
        · simp [write, h2, hv, read_below hm.2 (Nat.lt_succ_self b)]
        · simp [write, read, h2, hv]
      · simp [write, read, h1, h2, ih hm.2]

theorem read_write_other {m : Memory} {a x : Nat} (v : Byte) (h : x ≠ a) : read (write m a v) x = read m x := by
  induction m with
  | nil => by_cases hv : v = unlisted <;> simp [write, read, hv, h]
  | cons c m ih =>
    obtain ⟨b, u⟩ := c
    by_cases h1 : a < b
    · by_cases hv : v = unlisted <;> simp [write, read, h1, hv, h]
    · by_cases h2 : a = b
      · subst h2
        by_cases hv : v = unlisted <;> simp [write, read, hv, h]
      · simp [write, read, h1, h2, ih]

theorem wfFrom_write {m : Memory} {lo a : Nat} (v : Byte) (hm : wfFrom lo m = true) (hlo : lo ≤ a) (ha : a < 512) :
    wfFrom lo (write m a v) = true := by
  induction m generalizing lo with
  | nil => by_cases hv : v = unlisted <;> simp [write, wfFrom, hv, hlo, ha]
  | cons c m ih =>
    obtain ⟨b, u⟩ := c
    simp only [wfFrom, Bool.and_eq_true, decide_eq_true_eq] at hm
    by_cases h1 : a < b
    · by_cases hv : v = unlisted
      · simp [write, wfFrom, h1, hv, hm.2, hm.1.1.1, hm.1.1.2, hm.1.2]
      · simp [write, wfFrom, h1, hv, hm.2, hm.1.1.2, hm.1.2, hlo, ha, Nat.succ_le_of_lt h1]
    · by_cases h2 : a = b
      · by_cases hv : v = unlisted
        · simp only [write, h2, hv, if_true, Nat.lt_irrefl, if_false]
          exact wfFrom_weaken (by omega) hm.2
        · simp [write, wfFrom, h2, hv, hm.2, hm.1.1.1, hm.1.1.2]
      · simp only [write, h1, h2, if_false, wfFrom, Bool.and_eq_true, decide_eq_true_eq]
        exact ⟨hm.1, ih hm.2 (by omega)⟩

/-- A write keeps the canonical form. -/
theorem wf_write {m : Memory} {a : Nat} (v : Byte) (hm : wf m = true) (ha : a < 512) : wf (write m a v) = true :=
  wfFrom_write v hm (Nat.zero_le a) ha

/-- A run of writes keeps the canonical form. -/
theorem wf_writeBytes {m : Memory} (base : Nat) (bs : List Byte) (hm : wf m = true) :
    wf (writeBytes m base bs) = true := by
  induction bs generalizing m base with
  | nil => exact hm
  | cons v vs ih => exact ih _ (wf_write v hm (Nat.mod_lt _ (by decide)))

/-- Outside the run every byte reads as before. -/
theorem read_writeBytes_outside {m : Memory} {base : Nat} {bs : List Byte} (hb : base + bs.length ≤ 512) {x : Nat}
    (hx : x < base ∨ base + bs.length ≤ x) : read (writeBytes m base bs) x = read m x := by
  induction bs generalizing m base with
  | nil => rfl
  | cons v vs ih =>
    simp only [List.length_cons] at hb hx
    rw [writeBytes, ih (by omega) (by omega), read_write_other]
    rw [Nat.mod_eq_of_lt (by omega)]
    omega

/-- Inside the run the bytes written are read. -/
theorem read_writeBytes_inside {m : Memory} {base : Nat} {bs : List Byte} (hm : wf m = true)
    (hb : base + bs.length ≤ 512) {i : Nat} (hi : i < bs.length) :
    read (writeBytes m base bs) (base + i) = bs.getD i 0 := by
  induction bs generalizing m base i with
  | nil => exact absurd hi (Nat.not_lt_zero i)
  | cons v vs ih =>
    simp only [List.length_cons] at hb hi
    have hmod : base % 512 = base := Nat.mod_eq_of_lt (by omega)
    rw [writeBytes, hmod]
    cases i with
    | zero =>
      rw [read_writeBytes_outside (by omega) (Or.inl (by omega))]
      exact read_write_same base v hm
    | succ i =>
      rw [show base + (i + 1) = base + 1 + i by omega,
        ih (wf_write v hm (by omega)) (by omega) (by omega)]
      rfl

@[simp] theorem length_readBytes (m : Memory) (base n : Nat) : (readBytes m base n).length = n := by
  induction n generalizing base with
  | zero => rfl
  | succ n ih => simp [readBytes, ih]

/-- A run of reads that stays in the memory, as a map over its addresses. -/
theorem readBytes_eq_map {m : Memory} {base n : Nat} (h : base + n ≤ 512) :
    readBytes m base n = (List.range n).map fun i => read m (base + i) := by
  induction n generalizing base with
  | zero => rfl
  | succ n ih =>
    rw [readBytes, ih (by omega), List.range_succ_eq_map, List.map_cons, List.map_map,
      Nat.mod_eq_of_lt (by omega)]
    simp only [Nat.add_zero, List.cons.injEq, true_and, Function.comp_def]
    exact List.map_congr_left fun i _ => by rw [show base + 1 + i = base + (i + 1) by omega]

end Sys2Proof.Machine.Memory
end

