-- ==== Sys2Proof/Laws/PerInstr.lean ====
section
/-! SUPPORT. Per instruction: a well-formed instruction has 4 bytes if it is a command and 5 to 255 if it is a frame,
so the two are never confused (30_encoding.md R51, R55; 00_scope.md R6). -/

namespace Sys2Proof.Laws.EncodeLength

/-- The row is a wire frame. -/
def isFrame : Instr → Bool
  | .frameData _ _ _ _ => true
  | .frameAck _ _ _ _ => true
  | _ => false

def Statement (i : Instr) : Prop :=
  i.WellFormed →
    if isFrame i then 5 ≤ (encode i).length ∧ (encode i).length ≤ 255 else (encode i).length = 4

theorem length_frameBytes (d src k c : Byte) {pl : List Byte} (h : payloadOk pl) :
    5 ≤ (frameBytes d src k pl c).length ∧ (frameBytes d src k pl c).length ≤ 255 := by
  have h1 := h.1
  have h2 := h.2
  simp only [frameBytes, List.length_append, List.length_cons, List.length_nil]
  omega

theorem setaddr (a : Byte) : Statement (.setaddr a) := fun _ => rfl
theorem settmo (a : Byte) : Statement (.settmo a) := fun _ => rfl
theorem setpin (a : Byte) : Statement (.setpin a) := fun _ => rfl
theorem setport (a : Byte) : Statement (.setport a) := fun _ => rfl
theorem crc (n : Byte) : Statement (.crc n) := fun _ => rfl
theorem encd (a b : Byte) : Statement (.encd a b) := fun _ => rfl
theorem enca (a b n : Byte) : Statement (.enca a b n) := fun _ => rfl
theorem dec : Statement .dec := fun _ => rfl
theorem sync (a : Byte) (ako : Bool) : Statement (.sync a ako) := fun _ => rfl
theorem send (a n : Byte) (blk : Bool) : Statement (.send a n blk) := fun _ => rfl
theorem recv (n : Byte) (blk ako : Bool) : Statement (.recv n blk ako) := fun _ => rfl
theorem recvack : Statement .recvack := fun _ => rfl
theorem reserved0 : Statement .reserved0 := fun _ => rfl
theorem reservedD : Statement .reservedD := fun _ => rfl
theorem reservedE : Statement .reservedE := fun _ => rfl
theorem reservedF : Statement .reservedF := fun _ => rfl
theorem frameData (dest src : Byte) (payload : List Byte) (sum : Byte) :
    Statement (.frameData dest src payload sum) := fun h => length_frameBytes dest src kindData sum h
theorem frameAck (dest src : Byte) (payload : List Byte) (sum : Byte) :
    Statement (.frameAck dest src payload sum) := fun h => length_frameBytes dest src kindAck sum h

end Sys2Proof.Laws.EncodeLength
end

