-- ==== Sys2Proof/Laws/Stall.lean ====
section
/-! SUPPORT. A transfer the link has stalled goes on where it stopped: what a control transfer does after the link's
answers is what it does without the wait. -/

namespace Sys2Proof.Machine.State

variable (s : State) (p : Nat)

/-! ### After the link's last answer the place in the transfer plays no part -/

theorem nextPacket_part : nextPacket { s with part := p } = s.nextPacket := by
  unfold nextPacket
  by_cases h : s.work.k.toNat + 1 < s.work.pkts.toNat
  · rw [if_pos h, if_pos h]
    rfl
  · rw [if_neg h, if_neg h]
    rfl

theorem afterFirst_part : afterFirst { s with part := p } = s.afterFirst := by
  unfold afterFirst
  show (if s.opBlk = true then _ else _) = _
  by_cases h : s.opBlk = true
  · rw [if_pos h, if_pos h]
    rfl
  · rw [if_neg h, if_neg h]
    exact nextPacket_part s p

theorem judgeAttempt_part (r : SyncResult) : judgeAttempt { s with part := p } r = s.judgeAttempt r := by
  unfold judgeAttempt
  rw [show ackMatches { s with part := p } r = s.ackMatches r by cases r <;> rfl]
  by_cases h : s.ackMatches r = true
  · rw [if_pos h, if_pos h]
    rfl
  · rw [if_neg h, if_neg h]
    by_cases h' : s.cfg.tmoatt.toNat < s.work.attempts.toNat
    · rw [if_pos h', if_pos h']
      rfl
    · rw [if_neg h', if_neg h']
      rfl

theorem recvHead_part : recvHead { s with part := p } = s.recvHead := by
  unfold recvHead
  show (if s.recvDone = true then _ else _) = _
  by_cases h : s.recvDone = true
  · rw [if_pos h, if_pos h]
    rfl
  · rw [if_neg h, if_neg h]
    rfl

theorem recvNext_part : recvNext { s with part := p } = s.recvNext := by
  unfold recvNext
  show (if s.opBlk = true then _ else _) = _
  by_cases h : s.opBlk = true
  · rw [if_pos h, if_pos h]
    exact recvHead_part s p
  · rw [if_neg h, if_neg h]
    exact recvHead_part (s.setK _) p

theorem recvCase_part (r : SyncResult) : recvCase { s with part := p } r = s.recvCase r := by
  cases r with
  | none => exact recvNext_part s p
  | ack => rfl
  | data o =>
    simp only [recvCase]
    unfold afterAppend
    show (if (s.recvAppend o).opBlk = true then _ else _) = _
    by_cases h : (s.recvAppend o).opBlk = true
    · rw [if_pos h, if_pos h]
      exact recvHead_part (s.recvAppend o) p
    · rw [if_neg h, if_neg h]
      rfl

/-! ### The transfer after a part of it -/

variable {s} {m : Nat}

theorem tick_transmitPart (h : s.fsm = .sending ∨ s.fsm = .replying) : (s.transmitPart m).tick = s.tick := by
  have hT := transmit_transmitPart s (m := m)
  have hs : s.transmitPart m = { s with trace := (s.transmitPart m).trace, part := s.part + m } := by
    rw [transmitPart, sendBytes_eq]
  rcases h with h | h
  · rw [tick_sending h, tick_sending (by rw [hs]; exact h)]
    unfold tickSending
    rw [hT, show (s.transmitPart m).prog = s.prog by rw [hs], show (s.transmitPart m).work = s.work by rw [hs],
      show (s.transmitPart m).par = s.par by rw [hs]]
    by_cases hr : s.prog.resend = true
    · rw [if_pos hr, if_pos hr]
      rfl
    · rw [if_neg hr, if_neg hr]
      exact afterFirst_part (s.transmit.linkDelay s.par.settleUnits) _
  · rw [tick_replying h, tick_replying (by rw [hs]; exact h)]
    unfold tickReplying
    rw [hT]
    exact recvNext_part s.transmit _

theorem tick_capturePart (h : s.fsm = .awaitingAck ∨ s.fsm = .receiving) (hw : s.win.length = s.windowSize)
    (hp : s.part ≤ s.windowSize) (hm : m ≤ s.windowRest) : (s.capturePart m).tick = s.tick := by
  have hC := capture_capturePart s hw hp hm
  have hf : (s.capturePart m).fsm = s.fsm := by rw [capturePart, recvBytes_eq]
  have hc : (s.capturePart m).cfg = s.cfg := by rw [capturePart, recvBytes_eq]
  have ha : (s.capturePart m).opAko = s.opAko := by rw [capturePart, recvBytes_eq]; rfl
  rcases h with h | h
  · rw [tick_awaitingAck h, tick_awaitingAck (hf.trans h)]
    unfold tickAwaitingAck
    rw [hC, hc]
    exact judgeAttempt_part (s.capture.scanned s.cfg.myaddr true) _ (s.capture.scanResult s.cfg.myaddr true)
  · rw [tick_receiving h, tick_receiving (hf.trans h)]
    unfold tickReceiving
    rw [hC, hc, ha]
    exact recvCase_part (s.capture.scanned s.cfg.myaddr s.opAko) _ (s.capture.scanResult s.cfg.myaddr s.opAko)

/-- A transfer the link has answered in part, short of its last request, ends as it ends without the wait. -/
theorem tick_goOn (hi : s.Inv) (hm : m ≤ s.requests - 1) : (s.goOn m).tick = s.tick := by
  unfold goOn
  split
  case h_2 h => exact tick_transmitPart (Or.inl h)
  case h_8 h => exact tick_transmitPart (Or.inr h)
  case h_3 h =>
    simp only [requests, h] at hm
    exact tick_capturePart (Or.inl h) hi.1.2.2.2 (Nat.le_of_lt (hi.2.1.2.2.2.2 (by simp [h]))) (by omega)
  case h_7 h =>
    simp only [requests, h] at hm
    exact tick_capturePart (Or.inr h) hi.1.2.2.2 (Nat.le_of_lt (hi.2.1.2.2.2.2 (by simp [h]))) (by omega)
  all_goals rfl

/-- A transfer that uses the link still makes a request. -/
theorem requests_pos (hi : s.Inv) (h : s.fsm.usesLink = true) : 1 ≤ s.requests := by
  obtain ⟨-, -, hs, hr, hc⟩ := hi.2.1
  cases hf : s.fsm <;> simp [hf] at h <;> simp only [requests, hf, windowRest]
  · have := hs hf
    split <;> rename_i hre <;> simp only [hre, if_true, if_false, Bool.false_eq_true] at this ⊢ <;> omega
  · have := hc (by simp [hf])
    omega
  · omega
  · have := hc (by simp [hf])
    omega
  · have := hr hf
    omega

end Sys2Proof.Machine.State
end

