-- ==== Sys2Proof/Laws/Step.lean ====
section
/-! SUPPORT. What one step can do, said once: a frame on the line passes like any other bytes, and a step is one of
the host's actions, bytes on the line, reset, the link falling silent or answering again, a control transfer or a wait
on the link, or a command accepted. -/

namespace Sys2Proof.Machine

/-- A frame read from bytes, written again, is those bytes. -/
theorem frameBytes_of_decode {d src k : Byte} {rest : List Byte} (h : payloadOk rest.dropLast) :
    frameBytes d src k rest.dropLast (rest.getLastD 0) = d :: src :: k :: rest := by
  have hne : rest ≠ [] := by
    rintro rfl
    exact absurd h.1 (by decide)
  rw [frameBytes, List.getLastD_eq_getLast?, List.getLast?_eq_some_getLast hne, List.cons_append, List.cons_append,
    List.cons_append, Option.getD_some, List.dropLast_append_getLast hne]

/-- Bytes on the line, a frame or not, are heard or pass unheard. -/
theorem lineArrives_eq (bytes : List Byte) (s : State) : lineArrives bytes s = .next (s.hear bytes) := by
  unfold lineArrives decodeFrame
  split
  · rename_i i h
    split at h
    · split at h
      · rename_i hp
        split at h
        · rename_i hk
          cases h
          simp only [exec, execFrameData, ← hk, frameBytes_of_decode hp]
        · split at h
          · rename_i hk
            cases h
            simp only [exec, execFrameAck, ← hk, frameBytes_of_decode hp]
          · cases h
      · cases h
    · cases h
  · rfl

/-- The ways a step can go. -/
inductive StepCase (s t : State) : Prop where
  | reset (m : Nat) (rest : List Input) (hi : s.inputs = .rst m :: rest)
      (ht : t = { s with inputs := rest }.resetAfter m)
  | line (bytes : List Byte) (rest : List Input) (hi : s.inputs = .line bytes :: rest)
      (ht : t = { s with inputs := rest }.hear bytes)
  | transfer (rest : List Input) (hf : s.fsm ≠ .idle) (hi : (s.quiet ∧ rest = s.inputs) ∨ s.inputs = .wait :: rest)
      (hs : s.stalled = false) (ht : t = { s with inputs := rest }.tick)
  | waits (rest : List Input) (hi : (s.quiet ∧ rest = s.inputs) ∨ s.inputs = .wait :: rest)
      (hs : s.stalled = true) (ht : t = { s with inputs := rest })
  | stall (m : Nat) (rest : List Input) (hi : s.inputs = .stall m :: rest)
      (ht : t = { s with inputs := rest }.fallSilent m)
  | answer (rest : List Input) (hi : s.inputs = .answer :: rest) (ht : t = { s with inputs := rest }.linkAnswers)
  | still (rest : List Input) (hf : s.fsm = .idle) (hi : rest = s.inputs ∨ s.inputs = .wait :: rest)
      (ht : t = { s with inputs := rest })
  | take (rest : List Input) (hf : s.fsm = .idle) (hi : s.inputs = .takeResult :: rest)
      (ht : t = { s with inputs := rest }.takeResult)
  | writeIbuf (addr : Addr9) (b : Byte) (rest : List Input) (hf : s.fsm = .idle)
      (hi : s.inputs = .writeIbuf addr b :: rest) (ht : t = { s with inputs := rest }.hostWriteIbuf addr b)
  | writeObuf (addr : Addr9) (b : Byte) (rest : List Input) (hf : s.fsm = .idle)
      (hi : s.inputs = .writeObuf addr b :: rest) (ht : t = { s with inputs := rest }.hostWriteObuf addr b)
  | accept (w : CmdWord) (rest : List Input) (hf : s.fsm = .idle) (hv : s.resValid = false)
      (hi : s.inputs = .command w :: rest) (hq : ({ s with inputs := rest }.latch w).quiet = true)
      (ht : exec (decodeCommand w) ({ s with inputs := rest }.latch w) = .next t)
  | started (w : CmdWord) (rest : List Input) (hf : s.fsm = .idle) (hv : s.resValid = false)
      (hi : s.inputs = .command w :: rest) (hq : ({ s with inputs := rest }.latch w).quiet = false)
      (ht : t = ({ s with inputs := rest }.latch w).startCommand)

/-- A running command's own step: a control transfer, or a wait on the link. -/
theorem stepCase_transfer {s : State} {rest : List Input} (hf : s.fsm ≠ .idle)
    (hi : (s.quiet ∧ rest = s.inputs) ∨ s.inputs = .wait :: rest) : StepCase s { s with inputs := rest }.transfer := by
  by_cases hs : s.stalled = true
  · exact .waits rest hi hs (State.transfer_stalled (s := { s with inputs := rest }) hs)
  · have hs : s.stalled = false := by simpa using hs
    exact .transfer rest hf hi hs (State.transfer_eq (s := { s with inputs := rest }) hs)

theorem step_cases {s t : State} (h : step s = .next t) : StepCase s t := by
  unfold step at h
  split at h
  · rename_i hf
    unfold idleStep at h
    split at h
    · cases h; exact .still s.inputs hf (Or.inl rfl) rfl
    · rename_i w rest hi
      unfold acceptCommand at h
      split at h
      · rename_i hr
        have hv : s.resValid = false := by simpa [State.cmdReady, hf] using hr
        dsimp only at h
        split at h
        · rename_i hq; exact .accept w rest hf hv hi hq h
        · rename_i hq; cases h; exact .started w rest hf hv hi (by simpa using hq) rfl
      · cases h; exact .still s.inputs hf (Or.inl rfl) rfl
    · rename_i rest hi; cases h; exact .take rest hf hi rfl
    · rename_i addr b rest hi; cases h; exact .writeIbuf addr b rest hf hi rfl
    · rename_i addr b rest hi; cases h; exact .writeObuf addr b rest hf hi rfl
    · rename_i bytes rest hi; rw [lineArrives_eq] at h; cases h; exact .line bytes rest hi rfl
    · rename_i m rest hi; cases h; exact .reset m rest hi rfl
    · rename_i m rest hi; cases h; exact .stall m rest hi rfl
    · rename_i rest hi; cases h; exact .answer rest hi rfl
    · rename_i rest hi; cases h; exact .still rest hf (Or.inr hi) rfl
  · rename_i hf
    unfold busyStep at h
    split at h
    · rename_i bytes rest hi; rw [lineArrives_eq] at h; cases h; exact .line bytes rest hi rfl
    · rename_i m rest hi; cases h; exact .reset m rest hi rfl
    · rename_i m rest hi; cases h; exact .stall m rest hi rfl
    · rename_i rest hi; cases h; exact .answer rest hi rfl
    · rename_i rest hi; cases h; exact stepCase_transfer hf (Or.inr hi)
    all_goals
      rename_i hi
      cases h
      exact stepCase_transfer hf (Or.inl ⟨by simp [State.quiet, hi], rfl⟩)

/-- A quiet step of a running command is its control transfer, or a wait on the link. -/
theorem step_transfer {s : State} (hf : s.fsm ≠ .idle) (hq : s.quiet) : step s = .next s.transfer := by
  unfold step busyStep
  rw [if_neg hf]
  unfold State.quiet at hq
  split <;> simp_all

/-- A quiet step of a running command the link does not stall. -/
theorem step_tick {s : State} (hf : s.fsm ≠ .idle) (hq : s.quiet) (hs : s.stalled = false) : step s = .next s.tick := by
  rw [step_transfer hf hq, State.transfer_eq hs]

/-- No instruction refuses or faults. -/
theorem exec_next (i : Instr) (s : State) : ∃ t, exec i s = .next t := by
  cases i <;> exact ⟨_, rfl⟩

end Sys2Proof.Machine
end

