-- ==== Sys2Proof/Tests/Slice0.lean ====
section
/-! SUPPORT. Tests of the model, each expected value taken from spec/ (the vector or rule is named), and for every
statement that has hypotheses a state and operands that meet them. -/

namespace Sys2Proof.Tests

open Sys2Proof Sys2Proof.Machine

-- Each test is checked before the next one starts: checked side by side they take a thread each.
set_option Elab.async false

/-! ### Helpers -/

/-- A node of 95_test_vectors.md (PAYLOAD_SIZE 4): MYADDR, TMOATT, the first bytes of IBUF, the link's answers. -/
def node (myaddr tmoatt : Byte) (ibuf rx : List Byte) : State :=
  { State.reset with
    cfg := { myaddr := myaddr, tmoatt := tmoatt, pinsel := 0, portsel := 0 }
    ibuf := Memory.writeBytes [] 0 ibuf, rx := rx }

/-- The state an instruction leaves. -/
def after (i : Instr) (s : State) : State :=
  match exec i s with
  | .next t => t
  | .fault _ => s
  | .refused _ => s

/-- The state a step leaves. -/
def stepped (s : State) : State :=
  match step s with
  | .next t => t
  | .fault _ => s
  | .refused _ => s

/-- The state so many steps leave. -/
def steps : Nat → State → State
  | 0, s => s
  | n + 1, s => steps n (stepped s)

/-- Whether an outcome is a next state. -/
def goesOn : Host.Outcome State Fault Refusal → Bool
  | .next _ => true
  | .fault _ => false
  | .refused _ => false

/-- The invariant, evaluated. -/
def invHolds (s : State) : Bool :=
  decide s.BufInv && decide s.PartInv && decide s.FsmInv && decide (s.fsm ≠ .idle → s.resValid = false) &&
  decide (s.fsm.sendSide → s.SendInv) && decide (s.fsm.recvSide → s.RecvInv)

theorem inv_of {s : State} (h : invHolds s = true) : s.Inv := by
  simp only [invHolds, Bool.and_eq_true, decide_eq_true_eq] at h
  exact ⟨h.1.1.1.1.1, h.1.1.1.1.2, h.1.1.1.2, h.1.1.2, h.1.2, h.2⟩

theorem step_stepped {s : State} (h : goesOn (step s) = true) : step s = .next (stepped s) := by
  unfold stepped
  cases hs : step s <;> simp_all [goesOn]

theorem exec_after (i : Instr) (s : State) : exec i s = .next (after i s) := by
  cases i <;> rfl

/-- `OBUF[0 .. n)`. -/
def obufTo (n : Nat) (s : State) : List Byte := Memory.readBytes s.obuf 0 n

def tx (bs : List Byte) : List LinkEvent := bs.map .tx
def rx (bs : List Byte) : List LinkEvent := bs.map .rx
def ff (n : Nat) : List Byte := List.replicate n 0xFF
def settle : LinkEvent := .delay State.reset.par.settleUnits
def retry : LinkEvent := .delay State.reset.par.retryUnits

/-- The window of V14. -/
def w14 : List Byte :=
  [0xA5, 0x5A, 0xC3, 0x10, 0x20, 0x01, 0xDE, 0xAD, 0xBE, 0xEF, 0x04, 0x3C, 0x99, 0x77, 0x11, 0xEE]
/-- The frame in it. -/
def f14 : List Byte := [0x10, 0x20, 0x01, 0xDE, 0xAD, 0xBE, 0xEF, 0x04]
/-- The window of V18. -/
def w18 : List Byte :=
  [0x81, 0x42, 0x20, 0x10, 0x02, 0x04, 0x04, 0x04, 0x04, 0xFD, 0x24, 0x18, 0xE7, 0x7E, 0xDB, 0xBD]
/-- The message of V27 and its frame to node 20 with that frame's Ack. -/
def m27 : List Byte := [0x01, 0x02, 0x03, 0x04]
def f27 : List Byte := [0x20, 0x10, 0x01, 0x01, 0x02, 0x03, 0x04, 0x8D]
def a27 : List Byte := [0x10, 0x20, 0x02, 0x8D, 0x8D, 0x8D, 0x8D, 0x2F]
/-- The message of V31 and the Acks of its first two packets. -/
def m31 : List Byte := [0x30, 0x31, 0x32, 0x33, 0x34, 0x35, 0x36, 0x37, 0x38, 0x39, 0x3A, 0x3B]
def a31 : List Byte := [0x10, 0x20, 0x02, 0xA4, 0xA4, 0xA4, 0xA4, 0x1A] ++ ff 8
def b31 : List Byte := [0x10, 0x20, 0x02, 0x6E, 0x6E, 0x6E, 0x6E, 0xE6] ++ ff 8
/-- The frames "Hell" and "o!" of V25, from node 10 to node 20. -/
def hell : List Byte := [0x20, 0x10, 0x01, 0x48, 0x65, 0x6C, 0x6C, 0xC4]
def oPad : List Byte := [0x20, 0x10, 0x01, 0x6F, 0x21, 0x00, 0x00, 0x4C]
/-- The three windows of V39. -/
def w39 : List Byte :=
  ff 16 ++ ([0x00] ++ hell ++ ff 7) ++ (ff 5 ++ [0x10, 0x20, 0x02, 0xC4, 0xC4, 0xC4, 0xC4, 0x10] ++ ff 3)

/-! ### WellFormed (00_scope.md R6) -/

theorem test_wellFormed_refuses_empty_payload : ¬ (Instr.frameData 0x20 0x10 [] 0x00).WellFormed := by decide
theorem test_wellFormed_refuses_empty_ack_payload : ¬ (Instr.frameAck 0x20 0x10 [] 0x00).WellFormed := by decide
theorem test_wellFormed_refuses_long_payload :
    ¬ (Instr.frameData 0x20 0x10 (List.replicate 252 0) 0x00).WellFormed := by decide +kernel
theorem test_wellFormed_refuses_long_ack_payload :
    ¬ (Instr.frameAck 0x20 0x10 (List.replicate 252 0) 0x00).WellFormed := by decide +kernel

/-! ### Decode: words written out in 30_encoding.md, 41_codec.md and 95_test_vectors.md -/

theorem test_decode_setaddr : decodeCommand 0x00001001 = .setaddr 0x10 := by decide
theorem test_decode_settmo : decodeCommand 0x00000202 = .settmo 0x02 := by decide
theorem test_decode_setpin : decodeCommand 0x00000303 = .setpin 0x03 := by decide
theorem test_decode_setport : decodeCommand 0x00000104 = .setport 0x01 := by decide
theorem test_decode_crc : decodeCommand 0x09000005 = .crc 9 := by decide
theorem test_decode_encd : decodeCommand 0x00102006 = .encd 0x20 0x10 := by decide
theorem test_decode_enca : decodeCommand 0xC4201007 = .enca 0x10 0x20 0xC4 := by decide
theorem test_decode_dec : decodeCommand 0x00000008 = .dec := by decide
theorem test_decode_sync : decodeCommand 0x00001029 = .sync 0x10 true := by decide
theorem test_decode_send : decodeCommand 0x0600201A = .send 0x20 6 true := by decide
theorem test_decode_recv : decodeCommand 0x0400000B = .recv 4 false false := by decide
theorem test_decode_recv_ackOnly : decodeCommand 0x0400003B = .recv 4 true true := by decide
theorem test_decode_recvack : decodeCommand 0x0000000C = .recvack := by decide
/-- V42. -/
theorem test_decode_ignores_unlisted : decodeCommand 0xABCD10C1 = .setaddr 0x10 := by decide
/-- V43. -/
theorem test_decode_reserved :
    [0x00000000, 0x0000000D, 0x1234567E, 0xFFFFFFFF].map decodeCommand =
      [.reserved0, .reservedD, .reservedE, .reservedF] := by decide
/-- The bytes of a command word, least significant first (log entry 8). -/
theorem test_decode_command_bytes : decode [0x06, 0x20, 0x10, 0x00] = .ok (.encd 0x20 0x10) := by decide
/-- V10, V11: a frame's bytes. -/
theorem test_decode_frameData : decode hell = .ok (.frameData 0x20 0x10 [0x48, 0x65, 0x6C, 0x6C] 0xC4) := by
  decide +kernel
theorem test_decode_frameAck :
    decode [0x10, 0x20, 0x02, 0xC4, 0xC4, 0xC4, 0xC4, 0x10] =
      .ok (.frameAck 0x10 0x20 [0xC4, 0xC4, 0xC4, 0xC4] 0x10) := by decide +kernel
/-- R57: kinds 0x00 and 0x03 are reserved. -/
theorem test_decode_reservedKind :
    decode [0x10, 0x20, 0x03, 0x09, 0x09, 0x09, 0x09, 0x30] = .error .reservedKind ∧
    decode (List.replicate 8 0) = .error .reservedKind := by decide +kernel
theorem test_decode_badLength :
    decode [] = .error .badLength ∧ decode [0x01, 0x02, 0x03] = .error .badLength ∧
    decode (List.replicate 256 1) = .error .badLength := by decide +kernel
theorem test_decodeTableWord :
    decodeTableWord 32 0x0000000A = some (.send 0 0 false) ∧
    decodeTableWord 8 0x01 = some (.setaddr 0) ∧
    decodeTableWord 64 0xC46C6C6548011020 = some (.frameData 0x20 0x10 [0x48, 0x65, 0x6C, 0x6C] 0xC4) ∧
    decodeTableWord 64 0x0000000000020000 = some (.frameAck 0 0 [0, 0, 0, 0] 0) := by decide +kernel
theorem test_encode_send : encode (.send 0x20 6 true) = [0x1A, 0x20, 0x00, 0x06] := by decide

/-! ### Checksum (V1 to V9) -/

/-- V5. -/
theorem test_crc8Step :
    crc8Step 0x00 0x01 = 0x5E ∧ crc8Step 0x00 0xFF = 0x35 ∧ crc8Step 0xFF 0x00 = 0x35 ∧
    crc8Step 0x8C 0x00 = 0x2F := by decide +kernel
/-- V2. -/
theorem test_crc_check_value :
    (after (.crc 9) (node 0 0 [0x31, 0x32, 0x33, 0x34, 0x35, 0x36, 0x37, 0x38, 0x39] [])).res =
      { val := 0x00A1 } := by decide +kernel
/-- V1. -/
theorem test_crc_step :
    (stepped ((node 0 0 [1, 2, 3] []).withFetchWord 32 0x03000005)).res = { val := 0x00D8 } := by decide +kernel

/-! ### Codec (V10 to V13) -/

theorem test_encd :
    let t := after (.encd 0x20 0x10) (node 0 0 [0x48, 0x65, 0x6C, 0x6C] [])
    obufTo 8 t = hell ∧ t.res = { val := 0x00C4 } ∧ t.trace = [] := by decide +kernel
theorem test_enca :
    let t := after (.enca 0x10 0x20 0xC4) (node 0 0 [] [])
    obufTo 8 t = [0x10, 0x20, 0x02, 0xC4, 0xC4, 0xC4, 0xC4, 0x10] ∧ t.res = { val := 0x0010 } := by decide +kernel
/-- V13, with a wrong checksum and a reserved kind. -/
theorem test_dec :
    let t := after .dec (node 0 0 [0x20, 0x10, 0x01, 0x48, 0x65, 0x6C, 0x6C, 0x00] [])
    obufTo 8 t = [0x48, 0x65, 0x6C, 0x6C, 0, 0, 0, 0] ∧ t.res = { a := 0x20, b := 0x10, c := 0x01 } := by
  decide +kernel
theorem test_dec_reservedKind :
    (after .dec (node 0 0 [0x10, 0x20, 0x03, 0x09, 0x09, 0x09, 0x09, 0x30] [])).res =
      { a := 0x10, b := 0x20, c := 0x03 } := by decide +kernel

/-! ### Synchronizer (V14 to V24) -/

/-- V14, and V14's wrong address and mode. -/
theorem test_sync_data :
    let t := after (.sync 0x10 false) (node 0x33 0 w14 [])
    t.res = { val := 3, a := 0x01, b := 0x20, c := 0x04, fnd := true } ∧ obufTo 5 t = [0xDE, 0xAD, 0xBE, 0xEF, 0] ∧
    (after (.sync 0x11 false) (node 0x10 0 w14 [])).res = {} ∧
    (after (.sync 0x10 true) (node 0x10 0 w14 [])).res = {} := by decide +kernel
/-- V18, V22: the echo is the last payload byte. -/
theorem test_sync_ack :
    (after (.sync 0x20 true) (node 0 0 w18 [])).res = { val := 2, a := 0x02, b := 0x10, c := 0x04, fnd := true } ∧
    (after (.sync 0x20 true) (node 0 0 ([0x20, 0x10, 0x02, 0x11, 0x22, 0x33, 0x44, 0x04] ++ List.replicate 8 0x55)
      [])).res = { val := 0, a := 0x02, b := 0x10, c := 0x44, fnd := true } := by decide +kernel
/-- V15, V16: offset 8 is the last. -/
theorem test_sync_last_offset :
    sync 4 [0x13, 0x37, 0xC0, 0xDE, 0xFA, 0xCE, 0xB0, 0x0C, 0x10, 0x20, 0x01, 0xDE, 0xAD, 0xBE, 0xEF, 0x04] 0x10 false
      = .data 8 ∧
    sync 4 [0x13, 0x37, 0xC0, 0xDE, 0xFA, 0xCE, 0xB0, 0x0C, 0x55, 0x10, 0x20, 0x01, 0xDE, 0xAD, 0xBE, 0xEF] 0x10 false
      = .none := by decide +kernel
/-- V17, V20, V24 (c): a rejected candidate does not end the scan; a reserved kind is passed over. -/
theorem test_sync_rejections :
    sync 4 ([0x33, 0x20, 0x01, 0x01, 0x02, 0x03, 0x04, 0xDC] ++ [0x10, 0x20, 0x01, 0xDE, 0xAD, 0xBE, 0xEF, 0x04])
      0x10 false = .data 8 ∧
    sync 4 ([0x10, 0x20, 0x03, 0x09, 0x09, 0x09, 0x09, 0x30] ++ List.replicate 8 0x10) 0x10 false = .none ∧
    sync 4 ([0x10, 0x20, 0x02, 0x55, 0x55, 0x55, 0x55, 0xB5] ++ [0x10, 0x20, 0x01, 0xDE, 0xAD, 0xBE, 0xEF, 0x04])
      0x10 false = .data 8 := by decide +kernel

/-! ### SEND (V25 to V31, P2) -/

/-- V25. -/
theorem test_send_nonBlocking :
    let t := after (.send 0x20 6 false) (node 0x10 0 [0x48, 0x65, 0x6C, 0x6C, 0x6F, 0x21, 0x99, 0x99] [])
    t.res = { val := 6 } ∧ t.trace = tx hell ++ [settle] ++ tx oPad ++ [settle] := by decide +kernel
/-- P2: the first Ack is lost. -/
theorem test_send_program2 :
    let v := ff 5 ++ [0x10, 0x20, 0x02, 0xC4, 0xC4, 0xC4, 0xC4, 0x10] ++ ff 3
    let w := [0x10, 0x20, 0x02, 0x4C, 0x4C, 0x4C, 0x4C, 0x85] ++ ff 8
    let t := after (.send 0x20 6 true) (node 0x10 2 [0x48, 0x65, 0x6C, 0x6C, 0x6F, 0x21] (ff 16 ++ v ++ w))
    t.res = { val := 6 } ∧ t.fsm = .idle ∧ obufTo 8 t = List.replicate 8 0 ∧
    t.trace = tx hell ++ [settle] ++ rx (ff 16) ++ [retry] ++ tx hell ++ rx v ++ tx oPad ++ [settle] ++ rx w := by
  decide +kernel
/-- V29: the Ack on the last permitted attempt; V28: none, with budget 2. -/
theorem test_send_last_attempt :
    (after (.send 0x20 4 true) (node 0x10 1 m27 (ff 32 ++ a27 ++ ff 8))).res = { val := 4 } ∧
    let t := after (.send 0x20 4 true) (node 0x10 2 m27 (ff 64))
    t.res = { val := 0, tmo := true } ∧ t.work.attempts = 3 ∧
    t.trace = tx f27 ++ [settle] ++ rx (ff 16) ++ [retry] ++ tx f27 ++ rx (ff 16) ++ [retry] ++ tx f27 ++
      rx (ff 16) ++ [retry] ++ tx f27 ++ rx (ff 16) := by decide +kernel
/-- V31: the count of a timeout on packet 2, on packet 1. -/
theorem test_send_timeout_count :
    (after (.send 0x20 12 true) (node 0x10 0 m31 (a31 ++ b31 ++ ff 32))).res = { val := 4, tmo := true } ∧
    (after (.send 0x20 12 true) (node 0x10 0 m31 (a31 ++ ff 32))).res = { val := 0, tmo := true } := by decide +kernel

/-! ### RECV and RECVACK (V32 to V40, P3) -/

/-- P3. -/
theorem test_recv_program3 :
    let t := after (.recv 4 false false) (node 0x10 0 [] w14)
    t.res = { val := 4, a := 0x01, b := 0x20, c := 0x04, fnd := true } ∧ obufTo 5 t = [0xDE, 0xAD, 0xBE, 0xEF, 0] ∧
    t.trace = rx w14 ++ tx [0x20, 0x10, 0x02, 0x04, 0x04, 0x04, 0x04, 0xFD] := by decide +kernel
/-- V36: a blocking RECV sends no Ack. -/
theorem test_recv_blocking :
    let v := [0x00] ++ hell ++ ff 7
    let w := oPad ++ List.replicate 8 0x12
    let t := after (.recv 6 true false) (node 0x20 0 [] (ff 16 ++ v ++ w))
    t.res = { val := 8, a := 0x01, b := 0x10, c := 0x4C, fnd := true } ∧
    obufTo 8 t = [0x48, 0x65, 0x6C, 0x6C, 0x6F, 0x21, 0x00, 0x00] ∧ t.trace = rx (ff 16 ++ v ++ w) := by
  decide +kernel
/-- V33, V37, V40: one hit in two passes; a frame for another node; no Ack. -/
theorem test_recv_misses :
    (after (.recv 8 false false) (node 0x10 0 [] (ff 16 ++ w14))).res =
      { val := 4, a := 0x01, b := 0x20, c := 0x04, fnd := true } ∧
    (after (.recv 4 false false) (node 0x10 0 [] ([0x33, 0x20, 0x01, 0x01, 0x02, 0x03, 0x04, 0xDC] ++ ff 8))).res = {} ∧
    (after (.recv 4 false true) (node 0x10 0 [] (ff 16))).res = {} := by decide +kernel
/-- V39, and the same run from RECV n=4 blk=1 ako=1. -/
theorem test_recvack :
    let t := after .recvack (node 0x10 0 [] w39)
    t.res = { val := 0x00C4, a := 0x02, b := 0x20, c := 0xC4, fnd := true } ∧ t.trace = rx w39 ∧ t.obuf = [] ∧
    (after (.recv 4 true true) (node 0x10 0 [] w39)).res = t.res := by decide +kernel
/-- R129: without an Ack RECVACK does not complete. -/
theorem test_recvack_waits : (after .recvack (node 0x10 0 [] (ff 16))).fsm = .receiving := by decide +kernel

/-! ### Configuration, reserved opcodes, frames, reset (V41 to V44) -/

theorem test_setters :
    (after (.setaddr 0x10) State.reset).cfg = { State.reset.cfg with myaddr := 0x10 } ∧
    (after (.settmo 2) State.reset).cfg = { State.reset.cfg with tmoatt := 2 } ∧
    (after (.setpin 3) State.reset).pinSel = 3 ∧ (after (.setport 1) State.reset).portSel = 1 := by decide
theorem test_reserved_step :
    (stepped (State.reset.withFetchWord 32 0x1234567E)).res = { ill := true } ∧
    (stepped (State.reset.withFetchWord 32 0xFFFFFFFF)).cfg = State.reset.cfg := by decide +kernel
/-- P3's command, then its Data frame on the line, heard by the command's capture. -/
theorem test_frame_step :
    let s := { node 0x10 0 [] [] with
      inputs := [.command 0x0400000B, .line f14, .line (ff 8), .wait, .wait] }
    (steps 5 s).res = { val := 4, a := 0x01, b := 0x20, c := 0x04, fnd := true } := by
  decide +kernel
/-- R42, R178: the same frame on the line before the command is lost, and so is what passes after the capture. -/
theorem test_frame_lost :
    (steps 3 { node 0x10 0 [] (ff 16) with inputs := [.line f14, .line (ff 8), .command 0x0400000B] }).res = {} ∧
    (steps 4 { node 0x10 0 [] [] with inputs := [.command 0x0400000B, .line w14, .line (ff 9), .wait] }).line = [] := by
  decide +kernel
/-- V44. -/
theorem test_reset :
    let t := stepped { after .recvack (node 0x10 7 m27 (ff 16)) with inputs := [.rst 0] }
    t.fsm = .idle ∧ t.res = {} ∧ t.resValid = false ∧ t.cfg = t.par.resetCfg ∧ t.trace = [] ∧
    t.ibuf = (node 0x10 7 m27 []).ibuf := by decide +kernel
/-- R170: a transmission stops after the byte last handed to the link; a capture is dropped. -/
theorem test_reset_in_link :
    let t := steps 2 { node 0x10 0 m27 [] with inputs := [.command 0x0400200A, .rst 3] }
    let u := steps 2 { node 0x10 0 [] w14 with inputs := [.command 0x0400000B, .rst 5] }
    t.past = tx [0x20, 0x10, 0x01] ∧ t.trace = [] ∧ t.res = {} ∧ t.resValid = false ∧
    u.past = rx (w14.take 5) ∧ u.rx = w14.drop 5 ∧ u.obuf = [] := by decide +kernel
/-- R170: an append and a one-step command's OBUF bytes stop where the reset finds them. -/
theorem test_reset_in_obuf :
    let t := steps 2 { node 0x10 0 [] w14 with inputs := [.command 0x0400000B, .rst 18] }
    let u := steps 2 { node 0x10 0 [0x48, 0x65, 0x6C, 0x6C] [] with inputs := [.command 0x00102006, .rst 5] }
    obufTo 8 t = [0xDE, 0xAD, 0, 0, 0, 0, 0, 0] ∧ t.past = rx w14 ∧
    obufTo 8 u = [0x20, 0x10, 0x01, 0x48, 0x65, 0, 0, 0] ∧ u.fsm = .idle := by decide +kernel

/-- R186: a SEND to a silent link waits, in Sending, with no event; when the link answers it goes on. -/
theorem test_silent_link :
    let s := { node 0x10 0 m27 [] with silent := true, inputs := [.command 0x0400200A] }
    let t := steps 3 s
    t.fsm = .sending ∧ t.trace = [] ∧ t.cmdReady = false ∧
    (steps 2 { t with inputs := [.answer] }).res = { val := 4 } := by decide +kernel
/-- R186, R40: the link takes three bytes of a frame and then none, until it answers again; a reset would find three. -/
theorem test_stall_in_transmit :
    let t := steps 4 { node 0x10 0 m27 [] with inputs := [.command 0x0400200A, .stall 3, .wait] }
    t.trace = tx (f27.take 3) ∧ t.fsm = .sending ∧
    (steps 2 { t with inputs := [.answer] }).trace = tx f27 ++ [settle] ∧
    (stepped { t with inputs := [.rst 9] }).past = tx (f27.take 3) := by decide +kernel
/-- R186, R41: a capture stalled after five bytes, which stand in WIN, and gone on with. -/
theorem test_stall_in_capture :
    let t := steps 3 { node 0x10 0 [] w14 with inputs := [.command 0x0400000B, .stall 5, .wait] }
    t.win.take 6 = w14.take 5 ++ [0] ∧ t.trace = rx (w14.take 5) ∧ t.fsm = .receiving ∧
    (steps 3 { t with inputs := [.answer] }).res = { val := 4, a := 0x01, b := 0x20, c := 0x04, fnd := true } := by
  decide +kernel

/-! ### States of a running command -/

/-- A blocking SEND of three packets at its first capture. -/
def awaiting : State := after (.send 0x20 12 true) (node 0x10 0 m31 [])
/-- Its packet 0 acknowledged. -/
def acked : State := stepped { awaiting with rx := a31 }
/-- Packet 1 in Sending. -/
def sending1 : State := stepped acked
/-- An attempt failed. -/
def retrying : State := stepped { awaiting with rx := ff 16 }
/-- The retransmission. -/
def resending : State := stepped retrying
/-- The budget spent. -/
def timedOut : State := stepped { stepped resending with rx := ff 16 }
/-- A non-blocking SEND in Sending. -/
def sendingNb : State := { sending1 with cmd := { sending1.cmd with blk := false } }
/-- The same on its last packet. -/
def sendingNbLast : State := { sendingNb with work := { sendingNb.work with k := 2 } }
/-- The last packet acknowledged. -/
def ackedLast : State := { acked with work := { acked.work with k := 2 } }
/-- A blocking RECV at its first capture. -/
def receiving : State := after (.recv 6 true false) (node 0x20 0 [] [])
/-- A RECVACK at its first capture. -/
def receivingAck : State := after .recvack (node 0x10 0 [] [])
/-- A non-blocking RECV of two packets at its first capture. -/
def receivingNb : State := steps 1 { node 0x10 0 [] w14 with inputs := [.command 0x0800000B, .wait] }
/-- The same in Replying. -/
def replying : State := stepped receivingNb
/-- SETTMO in Unit. -/
def settingTmo : State := steps 1 { node 0x10 0 [] [] with inputs := [.command 0x00000702, .wait] }
/-- ENCD in Unit. -/
def encoding : State := steps 1 { node 0x10 0 m27 [] with inputs := [.command 0x00102006, .wait] }
/-- A reserved opcode in Unit. -/
def reserved : State := { settingTmo with cmd := { settingTmo.cmd with op := 0xD }, inputs := [] }

/-- A transmission, a retransmission and a capture the link has stalled part-way. -/
def sendingPart : State := stepped { sending1 with inputs := [.stall 3] }
def resendingPart : State := stepped { resending with inputs := [.stall 9] }
def capturingPart : State := stepped { receivingNb with inputs := [.stall 20] }

theorem test_running_states :
    [awaiting.fsm, acked.fsm, sending1.fsm, retrying.fsm, resending.fsm, timedOut.fsm, receiving.fsm, receivingAck.fsm,
      receivingNb.fsm, replying.fsm, settingTmo.fsm, encoding.fsm] =
      [.awaitingAck, .acked, .sending, .retrying, .sending, .timedOut, .receiving, .receiving, .receiving, .replying,
        .unit, .unit] := by decide +kernel

/-! ### Witnesses: a state and operands that meet every hypothesis of a statement -/

theorem test_witness_DecodeEncodeRoundTrip :
    (Instr.frameData 0x20 0x10 [0x48] 0xC4).WellFormed ∧
    (Instr.frameAck 0x20 0x10 (List.replicate 251 0) 0xC4).WellFormed ∧ (Instr.send 0x20 6 true).WellFormed := by
  decide +kernel

/-- V42's two words; and two words of each further list of fields. -/
theorem test_witness_UnlistedFieldsAreIgnored :
    State.reset.cmdReady = true ∧
    (fieldOp 0xABCD10C1 = fieldOp 0x00001001 ∧ fieldA 0xABCD10C1 = fieldA 0x00001001 ∧
      (0xABCD10C1 : CmdWord) ≠ 0x00001001) ∧
    (fieldOp 0xC4201037 = fieldOp 0xC4201007 ∧ fieldA 0xC4201037 = fieldA 0xC4201007 ∧
      fieldB 0xC4201037 = fieldB 0xC4201007 ∧ fieldN 0xC4201037 = fieldN 0xC4201007) ∧
    (fieldOp 0x04FF203A = fieldOp 0x0400201A ∧ fieldA 0x04FF203A = fieldA 0x0400201A ∧
      fieldN 0x04FF203A = fieldN 0x0400201A ∧ fieldBlk 0x04FF203A = fieldBlk 0x0400201A) ∧
    (fieldOp 0x0412342B = fieldOp 0x0400002B ∧ fieldN 0x0412342B = fieldN 0x0400002B ∧
      fieldBlk 0x0412342B = fieldBlk 0x0400002B ∧ fieldAko 0x0412342B = fieldAko 0x0400002B) := by decide

/-- Its second clause: a running SEND, and other latches of the fields it does not list. -/
theorem test_witness_UnlistedFieldsAreIgnored_later :
    let c := { awaiting.cmd with b := 0xEE, ako := true }
    awaiting.Inv ∧ awaiting.fsm ≠ .idle ∧ c.op = awaiting.cmd.op ∧ c.a = awaiting.cmd.a ∧ c.n = awaiting.cmd.n ∧
    c.blk = awaiting.cmd.blk ∧ c ≠ awaiting.cmd := by
  refine ⟨inv_of ?_, ?_⟩ <;> decide +kernel

theorem test_witness_StepRunsDecodedInstruction :
    let s := State.reset.withFetchWord 32 0x00001001
    let u := State.reset.withFetchWord 64 0xC46C6C6548011020
    s.fsm = .idle ∧ s.resValid = false ∧ s.inputs = [.command 0x00001001] ∧
    { s with inputs := [] }.quiet = true ∧ { s with inputs := [.rst 0] }.quiet = false ∧
    u.inputs = [.line hell] ∧ decodeFrame hell = .ok (.frameData 0x20 0x10 [0x48, 0x65, 0x6C, 0x6C] 0xC4) := by
  decide +kernel

theorem test_witness_CommandWaitsUntilReady :
    let s := { awaiting with inputs := [.command 0x00001001] }
    let u := { after .dec State.reset with inputs := [.command 0x00001001] }
    (s.cmdReady = false ∧ s.fsm ≠ .idle ∧ s.fsm ≠ .unit) ∧ (u.cmdReady = false ∧ u.fsm = .idle) := by decide +kernel

/-- A step answers a next state: the hypothesis of ConfigChangesOnlyBySetters, ResultsChangeOnlyAtCompletion,
TraceOnlyGrows, IbufChangesOnlyByHost and ParametersNeverChange. -/
theorem test_witness_step : step State.reset = .next State.reset ∧ step timedOut = .next (stepped timedOut) :=
  ⟨rfl, step_stepped (by decide +kernel)⟩

/-- The exceptions those statements name do happen. -/
theorem test_witness_step_exceptions :
    (stepped (State.reset.withFetchWord 32 0x00001001)).cfg ≠ State.reset.cfg ∧
    (stepped settingTmo).cfg = { settingTmo.cfg with tmoatt := 7 } ∧ (stepped settingTmo).cfg ≠ settingTmo.cfg ∧
    (stepped { awaiting with inputs := [.rst 0] }).past = awaiting.trace ∧ awaiting.trace ≠ [] ∧
    (after .dec (node 0 0 hell [])).res ≠ State.reset.res ∧
    Memory.wf State.reset.ibuf = true ∧
    Memory.read (stepped { State.reset with inputs := [.writeIbuf 511 7] }).ibuf 511 = 7 ∧
    (stepped timedOut).res ≠ timedOut.res := by decide +kernel

theorem test_witness_ResetLeavesTableValues :
    ({ awaiting with inputs := [.rst 0] } : State).inputs = .rst 0 :: [] ∧ State.reset.fsm = .idle := by decide +kernel

theorem test_witness_HostActsBetweenCommands :
    ({ after .dec State.reset with inputs := [.takeResult] } : State).fsm = .idle ∧
    (let s := { State.reset with inputs := [.writeIbuf 0 9] }
     s.fsm = .idle ∧ Memory.wf s.ibuf = true ∧ s.inputs = .writeIbuf 0 9 :: []) ∧
    (let s := { State.reset with inputs := [.writeObuf 511 9] }
     s.fsm = .idle ∧ Memory.wf s.obuf = true ∧ s.inputs = .writeObuf 511 9 :: []) ∧
    (awaiting.fsm ≠ .idle ∧ awaiting.quiet) ∧ receivingNb.inputs = .wait :: [] := by decide +kernel

/-- The invariant in every control state, and with bytes heard on the line. -/
theorem test_witness_StepKeepsInv_states :
    ∀ s ∈ [State.reset, awaiting, acked, sending1, retrying, resending, timedOut, receiving, receivingAck, receivingNb,
      replying, encoding, settingTmo, sendingPart, resendingPart, capturingPart,
      stepped { sending1 with inputs := [.stall 20] }, stepped { receiving with inputs := [.line hell] }], s.Inv :=
  fun s hs => inv_of (List.all_eq_true.mp (by decide +kernel) s hs)
/-- A step from it. -/
theorem test_witness_StepKeepsInv :
    timedOut.Inv ∧ step timedOut = .next (stepped timedOut) ∧
    replying.Inv ∧ step replying = .next (stepped replying) := by
  refine ⟨inv_of ?_, step_stepped ?_, inv_of ?_, step_stepped ?_⟩ <;> decide +kernel

/-- A step that writes OBUF and is no host write. -/
theorem test_witness_ObufIndexAtMost504 :
    let s : State := { receiving with rx := hell ++ ff 8 }
    s.Inv ∧ step s = .next (stepped s) ∧ (stepped s).obuf ≠ s.obuf ∧ s.fsm ≠ .idle := by
  refine ⟨inv_of ?_, step_stepped ?_, ?_, ?_⟩ <;> decide +kernel

theorem test_witness_RetransmissionKeepsFrame :
    (awaiting.fsm = .awaitingAck ∧ awaiting.quiet) ∧ (retrying.fsm = .retrying ∧ retrying.quiet) ∧
    (resending.fsm = .sending ∧ resending.prog.resend = true ∧ resending.quiet ∧
      goesOn (step resending) = true) := by decide +kernel

theorem test_witness_CrcDetectsSingleBitFlip : (0 : Nat) < 8 ∧ (7 : Nat) < 8 := by decide

theorem test_witness_EncodersProduceValidFrames : ([0x48, 0x65, 0x6C, 0x6C] : List Byte).length = 4 := by decide

/-- The canonical memory of EncdStoresDataFrame, EncaStoresAckFrame, DecReturnsFields. -/
theorem test_witness_obuf_wf : Memory.wf (after .dec (node 0 0 hell [])).obuf = true := by decide +kernel

theorem test_witness_SyncFindsLowestOffset :
    sync 4 w14 0x10 false = .data 3 ∧ sync 4 w18 0x20 true = .ack 2 0x04 ∧ sync 4 (ff 16) 0xFF false = .none := by
  decide +kernel

theorem test_witness_ZeroWindowIsNeverMatched : (0 : Nat) ≤ 4 + 4 ∧ (8 : Nat) ≤ 4 + 4 := by decide

theorem test_witness_SyncCommandResult :
    let w (bs : List Byte) := (List.range State.reset.windowSize).map (Memory.read (node 0 0 bs []).ibuf)
    Memory.wf State.reset.obuf = true ∧ sync 4 (w w14) 0x10 false = .data 3 ∧ sync 4 (w w18) 0x20 true = .ack 2 0x04 ∧
    sync 4 (w (ff 16)) 0x10 true = .none := by decide +kernel

theorem test_witness_LeafCommandsReadNoConfig :
    Instr.dec ∈ [Instr.crc 3, .encd 1 2, .enca 1 2 3, .dec, .sync 1 true] := by decide

theorem test_witness_ReservedOpcodesOnlySetIll :
    let s := State.reset.withFetchWord 32 0x0000000D
    s.inputs = .command 0x0000000D :: [] ∧ s.cmdReady = true ∧ (fieldOp 0x0000000D).toNat ∈ [0x0, 0xD, 0xE, 0xF] ∧
    { s with inputs := [] }.quiet = true ∧
    step s = .next (stepped s) ∧ s.res.ill = false ∧ (stepped s).res.ill = true ∧
    reserved.fsm = .unit ∧ reserved.quiet ∧ reserved.cmd.op.toNat ∈ [0x0, 0xD, 0xE, 0xF] := by
  refine ⟨?_, ?_, ?_, ?_, step_stepped ?_, ?_, ?_⟩ <;> decide +kernel

theorem test_witness_TransmitSendsTxfInOrder :
    sending1.txf.length = sending1.frameSize ∧ sending1.part = 0 ∧
    sendingPart.txf.length = sendingPart.frameSize ∧ sendingPart.part = 3 := by decide +kernel

theorem test_witness_CaptureTakesNextWindow :
    receiving.win.length = receiving.windowSize ∧ receiving.part = 0 ∧
    capturingPart.win.length = capturingPart.windowSize ∧ capturingPart.part = 15 := by decide +kernel

theorem test_witness_FrameOnLineIsDelivered :
    let s := { node 0x10 0 [] [] with inputs := [.command 0x0400000B, .line f14, .wait, .wait] }
    let pl : List Byte := [0xDE, 0xAD, 0xBE, 0xEF]
    fieldOp 0x0400000B = 0xB ∧ fieldBlk 0x0400000B = false ∧ fieldAko 0x0400000B = false ∧
    1 ≤ (fieldN 0x0400000B).toNat ∧ (fieldN 0x0400000B).toNat ≤ s.payloadSize ∧
    pl.length = s.payloadSize ∧ Memory.wf s.obuf = true ∧ s.cmdReady = true ∧ s.silent = false ∧
    s.inputs = .command 0x0400000B :: .line ([s.cfg.myaddr, 0x20, 0x01] ++ pl ++
      [crc8 ([s.cfg.myaddr, 0x20, 0x01] ++ pl)]) :: .wait :: .wait :: [] := by decide +kernel

/-- NonBlockingSendTransmitsAll, NonBlockingRecvAlwaysEnds: the link answers. -/
theorem test_witness_linkAnswers : State.reset.silent = false ∧ State.reset.stalled = false := by decide

theorem test_witness_PacketCountIsCeiling : (1 : Nat) ≤ 4 ∧ (6 : Nat) ≤ 2 * 4 := by decide

/-- Two memories that agree below the message's end and differ at it. -/
theorem test_witness_ChunkIsZeroPadded :
    (255 : Nat) ≤ 255 ∧
    ∀ x, x < 2 → Memory.read (node 0 0 [0x41, 0x42, 0x43] []).ibuf x = Memory.read (node 0 0 [0x41, 0x42] []).ibuf x := by
  decide +kernel

/-- No lost Ack; the most lost Acks a budget of 1 survives (V29); three lost Acks with the budget 0xFF. -/
theorem test_witness_SendSurvivesLostAcks :
    let frame := (node 0x10 1 m27 []).packetFrame 0x20 4 0
    (let s := node 0x10 0 m27 (a27 ++ ff 8)
     s.silent = false ∧ (0 + 1) * s.windowSize ≤ s.rx.length ∧ s.windowAcks frame (s.listedWindow 0) = true) ∧
    (let s := node 0x10 1 m27 (ff 32 ++ a27 ++ ff 8)
     1 ≤ (4 : Byte).toNat ∧ (4 : Byte).toNat ≤ s.payloadSize ∧ (2 + 1) * s.windowSize ≤ s.rx.length ∧
     2 ≤ s.cfg.tmoatt.toNat + 1 ∧ (∀ j, j < 2 → s.windowAcks frame (s.listedWindow j) = false) ∧
     s.windowAcks frame (s.listedWindow 2) = true) ∧
    (let s := node 0x10 0xFF m27 (ff 48 ++ a27 ++ ff 8)
     (3 + 1) * s.windowSize ≤ s.rx.length ∧ s.cfg.tmoatt = 0xFF ∧
     (∀ j, j < 3 → s.windowAcks frame (s.listedWindow j) = false) ∧
     s.windowAcks frame (s.listedWindow 3) = true) := by decide +kernel

/-- V27, V28. -/
theorem test_witness_SendTimesOutAfterBudget :
    let frame := (node 0x10 0 m27 []).packetFrame 0x20 4 0
    (let s := node 0x10 0 m27 (ff 32)
     s.silent = false ∧ 1 ≤ (4 : Byte).toNat ∧ s.cfg.tmoatt ≠ 0xFF ∧ (0 + 2) * s.windowSize ≤ s.rx.length ∧
     ∀ j, j < 0 + 2 → s.windowAcks frame (s.listedWindow j) = false) ∧
    (let s := node 0x10 2 m27 (ff 64)
     (2 + 2) * s.windowSize ≤ s.rx.length ∧ ∀ j, j < 2 + 2 → s.windowAcks frame (s.listedWindow j) = false) := by
  decide +kernel

/-- A state for each clause of SendControlTransfers and each of its branches. -/
theorem test_witness_SendControlTransfers :
    (resending.cmd.op = 0xA ∧ resending.quiet ∧ resending.stalled = false ∧ resending.fsm = .sending ∧ resending.prog.resend = true) ∧
    (sending1.cmd.op = 0xA ∧ sending1.quiet ∧ sending1.fsm = .sending ∧ sending1.prog.resend = false ∧
      sending1.cmd.blk = true) ∧
    (sendingNb.fsm = .sending ∧ sendingNb.prog.resend = false ∧ sendingNb.cmd.blk = false ∧
      sendingNb.work.k.toNat + 1 < sendingNb.work.pkts.toNat) ∧
    (sendingNbLast.fsm = .sending ∧ sendingNbLast.work.pkts.toNat ≤ sendingNbLast.work.k.toNat + 1) ∧
    (awaiting.fsm = .awaitingAck ∧ awaiting.cmd.op = 0xA) ∧ (retrying.fsm = .retrying ∧ retrying.cmd.op = 0xA) ∧
    (acked.fsm = .acked ∧ acked.work.k.toNat + 1 < acked.work.pkts.toNat) ∧
    (ackedLast.fsm = .acked ∧ ackedLast.work.pkts.toNat ≤ ackedLast.work.k.toNat + 1) ∧
    (timedOut.fsm = .timedOut ∧ timedOut.cmd.op = 0xA ∧ timedOut.quiet) ∧
    (let s := { sendingPart with silent := false }
     s.fsm = .sending ∧ s.part = 3 ∧ s.quiet ∧ s.stalled = false) := by decide +kernel

theorem test_witness_TimeoutReportsPartialCount : timedOut.Inv ∧ timedOut.fsm = .timedOut ∧ timedOut.quiet := by
  refine ⟨inv_of ?_, ?_, ?_⟩ <;> decide +kernel

/-- SendFrame: a SEND that completes and one that awaits the link. -/
theorem test_witness_SendFrame :
    exec (.send 0x20 12 true) (node 0x10 0 m31 []) = .next awaiting ∧
    exec (.send 0x20 0 false) State.reset = .next (after (.send 0x20 0 false) State.reset) :=
  ⟨exec_after _ _, exec_after _ _⟩

/-- P3. -/
theorem test_witness_RecvDeliversAndAcknowledges :
    let s := node 0x10 0 [] w14
    s.silent = false ∧ 1 ≤ (4 : Byte).toNat ∧ (4 : Byte).toNat ≤ s.payloadSize ∧ Memory.wf s.obuf = true ∧
    sync s.payloadSize s.oracleWindow s.cfg.myaddr false = .data 3 := by decide +kernel

/-- V32, V40. -/
theorem test_witness_RecvMissLeavesNoTrace :
    let s := node 0x10 0 [] (ff 16)
    s.silent = false ∧ 1 ≤ (1 : Byte).toNat ∧ (1 : Byte).toNat ≤ s.payloadSize ∧
    sync s.payloadSize s.oracleWindow s.cfg.myaddr false = .none ∧
    sync s.payloadSize s.oracleWindow s.cfg.myaddr true = .none := by decide +kernel

/-- V38, with a window that misses before each packet. -/
theorem test_witness_BlockingRecvCollectsPackets :
    let s := node 0x10 0 [] (ff 16 ++ w14 ++ ff 16 ++ w14)
    let found (j : Nat) := if j % 2 = 0 then none else some 3
    s.silent = false ∧ Memory.wf s.obuf = true ∧ 4 * s.windowSize ≤ s.rx.length ∧
    (∀ j, j < 4 → sync s.payloadSize (s.listedWindow j) s.cfg.myaddr false = dataAt (found j)) ∧
    (∀ j, j < 4 → matchesBefore found j < packetCount 8 4) ∧ matchesBefore found 4 = packetCount 8 4 ∧
    packetCount 0 4 = 0 := by decide +kernel

/-- V33: a miss and a match. -/
theorem test_witness_NonBlockingRecvAcknowledgesEveryMatch :
    let s := node 0x10 0 [] (ff 16 ++ w14)
    let found (j : Nat) := if j = 0 then none else some 3
    s.silent = false ∧ Memory.wf s.obuf = true ∧ packetCount 8 4 * s.windowSize ≤ s.rx.length ∧
    (∀ j, j < packetCount 8 4 → sync s.payloadSize (s.listedWindow j) s.cfg.myaddr false = dataAt (found j)) ∧
    matchesBefore found 1 + 1 = matchesBefore found (packetCount 8 4) ∧ matchesBefore (fun _ => none) 2 = 0 := by
  decide +kernel

/-- Each control state and each answer of a scan. -/
theorem test_witness_RecvControlTransfers_scans :
    (let s := { receiving with rx := ff 16 }
     s.quiet ∧ s.stalled = false ∧ sync s.payloadSize s.nextWindow s.cfg.myaddr s.opAko = .none) ∧
    (let s := { receiving with rx := hell ++ ff 8 }
     s.quiet ∧ s.opBlk = true ∧ sync s.payloadSize s.nextWindow s.cfg.myaddr s.opAko = .data 0) ∧
    (let s := { receivingNb with inputs := [] }
     s.quiet ∧ s.stalled = false ∧ s.opBlk = false ∧
     sync s.payloadSize s.nextWindow s.cfg.myaddr s.opAko = .data 3) ∧
    (let s := { capturingPart with silent := false }
     s.quiet ∧ s.stalled = false ∧ s.part = 15 ∧
     sync s.payloadSize s.nextWindow s.cfg.myaddr s.opAko = .data 3) ∧
    (let s := { receivingAck with rx := w39.drop 32 }
     s.quiet ∧ sync s.payloadSize s.nextWindow s.cfg.myaddr s.opAko = .ack 5 0xC4) := by decide +kernel
theorem test_witness_RecvControlTransfers :
    receivingNb.Inv ∧ receivingNb.fsm.recvSide ∧ receivingAck.Inv ∧ receivingAck.fsm.recvSide ∧
    (replying.Inv ∧ replying.fsm.recvSide ∧ replying.quiet ∧ replying.stalled = false) := by
  refine ⟨inv_of ?_, ?_, inv_of ?_, ?_, inv_of ?_, ?_⟩ <;> decide +kernel

/-- RecvackIsAckOnlyRecv: a RECVACK in execution. -/
theorem test_witness_RecvackIsAckOnlyRecv :
    receivingAck.Inv ∧ receivingAck.fsm.recvSide ∧ receivingAck.cmd.op = 0xC := by
  refine ⟨inv_of ?_, ?_⟩ <;> decide +kernel

theorem test_witness_LineIsHeardOnlyInCapture :
    ({ receiving with inputs := [.line hell] } : State).inputs = .line hell :: [] ∧ receiving.fsm = .receiving ∧
    replying.Inv ∧ step replying = .next (stepped replying) ∧ replying.fsm ≠ .awaitingAck ∧
    replying.fsm ≠ .receiving ∧ (stepped replying).fsm = .receiving := by
  refine ⟨?_, ?_, inv_of ?_, step_stepped ?_, ?_⟩ <;> decide +kernel

/-- Reset in the middle of a transmission, a capture, an append, a reply, a retry delay and a one-step command. -/
theorem test_witness_ResetCutsTransferShort :
    (∀ s ∈ [awaiting, acked, sending1, retrying, timedOut, receivingNb, replying, encoding, sendingPart,
      { capturingPart with silent := false }], s.Inv) ∧
    ({ sending1 with inputs := [.rst 3] } : State).inputs = .rst 3 :: [] ∧ sending1.frameSize < 9 ∧
    receivingNb.work.bytesDone.toNat + (18 - receivingNb.windowSize) = 2 :=
  ⟨fun s hs => inv_of (List.all_eq_true.mp (by decide +kernel) s hs), by decide +kernel⟩

/-- BlockingRecvNeverTransmits: a blocking RECV that completes and one that awaits the link. -/
theorem test_witness_BlockingRecvNeverTransmits :
    exec (.recv 6 true false) (node 0x20 0 [] []) = .next receiving ∧
    (after (.recv 4 true false) (node 0x20 0 [] (hell ++ ff 8))).fsm = .idle :=
  ⟨exec_after _ _, by decide +kernel⟩

theorem test_witness_AckOnlyReceiveReturnsEcho :
    let s := node 0x20 0 [] w18
    s.silent = false ∧ 1 ≤ (1 : Byte).toNat ∧ s.rx ≠ [] ∧ sync s.payloadSize s.oracleWindow s.cfg.myaddr true = .ack 2 0x04 := by
  decide +kernel

theorem test_witness_RecvFrame :
    Memory.wf (node 0x10 0 [] w39).obuf = true ∧
    exec .recvack (node 0x10 0 [] w39) = .next (after .recvack (node 0x10 0 [] w39)) ∧
    exec (.recv 8 false false) (node 0x10 0 [] w14) = .next (after (.recv 8 false false) (node 0x10 0 [] w14)) :=
  ⟨by decide +kernel, exec_after _ _, exec_after _ _⟩

/-- CommandCompletesOrAwaitsLink: both outcomes, for each of its instructions. -/
theorem test_witness_CommandCompletesOrAwaitsLink :
    awaiting.fsm = .awaitingAck ∧ awaiting.line = [] ∧ awaiting.rx = [] ∧ receiving.fsm = .receiving ∧ receiving.rx = [] ∧
    (after .recvack (node 0x10 0 [] w39)).fsm = .idle ∧
    exec (.send 0x20 12 true) (node 0x10 0 m31 []) = .next awaiting := by
  refine ⟨?_, ?_, ?_, ?_, ?_, ?_, exec_after _ _⟩ <;> decide +kernel

/-- SilentLinkStallsCommand: a command begun on a silent link, and one stalled part-way. -/
theorem test_witness_SilentLinkStallsCommand :
    ({ State.reset with silent := true } : State).silent = true ∧ (4 : Byte) ≠ 0 ∧
    (after (.send 0x20 12 true) { node 0x10 0 m31 [] with silent := true }).stalled = true ∧
    (sendingPart.silent = true ∧ sendingPart.fsm = .sending ∧ sendingPart.quiet ∧
      step sendingPart = .next (stepped sendingPart)) ∧
    (capturingPart.silent = true ∧ capturingPart.fsm = .receiving) := by
  refine ⟨?_, ?_, ?_, ⟨?_, ?_, ?_, step_stepped ?_⟩, ?_⟩ <;> decide +kernel

/-- StallOnlyDelays: in every control state. -/
theorem test_witness_StallOnlyDelays :
    (∀ s ∈ [awaiting, acked, sending1, resending, retrying, timedOut, receivingNb, replying, encoding], s.Inv) ∧
    (∀ s ∈ [awaiting, acked, sending1, resending, retrying, timedOut, receivingNb, replying, encoding],
      s.silent = false ∧ s.fsm ≠ .idle) ∧
    ({ sending1 with inputs := [.stall 3, .answer, .wait] } : State).inputs = .stall 3 :: .answer :: .wait :: [] :=
  ⟨fun s hs => inv_of (List.all_eq_true.mp (by decide +kernel) s hs), by decide +kernel, rfl⟩

end Sys2Proof.Tests
end

section
/-! What every step keeps outside the block's registers: the parameters (00_scope.md R6, R7). An executed instruction
keeps all that `SameOutside` lists but the configuration and the latched word. -/

namespace Sys2Proof.Machine.State

/-- A SEND that has begun sends, or has completed with nothing to send. -/
theorem startSend_fsm (s : State) : s.startSend.fsm = .sending ∨ s.startSend.fsm = .idle := by
  unfold startSend
  split
  · exact Or.inr rfl
  · exact Or.inl rfl

theorem startSend_ne_unit (s : State) : s.startSend.fsm ≠ .unit := by
  rcases startSend_fsm s with h | h <;> simp [h]

theorem startRecv_ne_unit (s : State) : s.startRecv.fsm ≠ .unit := by
  unfold startRecv
  rcases recvHead_fsm s.dropLine.countPackets.clearRecv with h | h <;> simp [h]

/-- The run of an accepted SEND, from its first transfer on. -/
theorem runSend_sameOutside (s : State) : SameOutside s s.startSend.runCommand :=
  (startSend_sameOutside s).trans (runCommand_sameOutside _ (startSend_ne_unit s))

/-- The run of an accepted RECV or RECVACK, from the head of its loop on. -/
theorem runRecv_sameOutside (s : State) : SameOutside s s.startRecv.runCommand :=
  (startRecv_sameOutside s).trans (runCommand_sameOutside _ (startRecv_ne_unit s))

theorem finishSync_sameOutside (s : State) : SameOutside s s.finishSync :=
  SameOutside.trans (t := s.loadWin.scanned s.cmd.a s.cmd.ako) ⟨rfl, rfl, rfl, rfl, rfl, rfl, rfl⟩
    (syncCase_sameOutside _ _)

/-- A command first latches its operands (`l`) and then goes on from there: the configuration and the latched word set
apart, what both parts keep the command keeps. -/
theorem SameOutside.of_latched {s l t : State} (h : SameOutside l t)
    (hl : SameOutside { s with cfg := l.cfg, cmd := l.cmd } l) :
    SameOutside { s with cfg := t.cfg, cmd := t.cmd } t :=
  ⟨rfl, rfl, h.ibuf.trans hl.ibuf, h.past.trans hl.past, h.par.trans hl.par, h.silent.trans hl.silent,
    h.inputs.trans hl.inputs⟩

theorem tick_par (s : State) : s.tick.par = s.par := by
  by_cases hu : s.fsm = .unit
  · rw [tick_unit hu]
    exact (finishUnit_sameOutside s).par
  · exact (tick_sameOutside s hu).par

theorem resetAfter_par (s : State) (m : Nat) : (s.resetAfter m).par = s.par := (firstAccesses_partOf s _).par

theorem fallSilent_par (s : State) (m : Nat) : (s.fallSilent m).par = s.par := by
  obtain ⟨_, h⟩ := fallSilent_eq s m
  rw [h]

end Sys2Proof.Machine.State

namespace Sys2Proof.Machine

open State

/-- An instruction changes nothing outside the block but the configuration, which a setter writes, and the latched word,
which it latches its own operands into. -/
theorem exec_sameOutside {i : Instr} {s t : State} (h : exec i s = .next t) :
    SameOutside { s with cfg := t.cfg, cmd := t.cmd } t := by
  cases i with
  | sync a ako =>
    cases h
    exact (finishSync_sameOutside _).of_latched ⟨rfl, rfl, rfl, rfl, rfl, rfl, rfl⟩
  | send a n blk =>
    cases h
    exact (runSend_sameOutside _).of_latched ⟨rfl, rfl, rfl, rfl, rfl, rfl, rfl⟩
  | recv n blk ako =>
    cases h
    exact (runRecv_sameOutside _).of_latched ⟨rfl, rfl, rfl, rfl, rfl, rfl, rfl⟩
  | recvack =>
    cases h
    exact (runRecv_sameOutside _).of_latched ⟨rfl, rfl, rfl, rfl, rfl, rfl, rfl⟩
  | _ =>
    cases h
    exact ⟨rfl, rfl, rfl, rfl, rfl, rfl, rfl⟩

/-- Settles O11: each way a step can go keeps the parameters, a whole run of `exec` included. -/
theorem parametersNeverChange : Obligations.ParametersNeverChange := by
  intro s t h
  cases step_cases h with
  | reset m rest _ ht => rw [ht, resetAfter_par]
  | line bytes rest _ ht => rw [ht, hear_par]
  | transfer rest _ _ _ ht => rw [ht, tick_par]
  | waits rest _ _ ht => rw [ht]
  | stall m rest _ ht => rw [ht, fallSilent_par]
  | answer rest _ ht => rw [ht, linkAnswers_par]
  | still rest _ _ ht => rw [ht]
  | take rest _ _ ht => rw [ht, takeResult_par]
  | writeIbuf addr b rest _ _ ht => rw [ht, hostWriteIbuf_par]
  | writeObuf addr b rest _ _ ht => rw [ht, hostWriteObuf_par]
  | accept w rest _ _ _ _ ht => exact (exec_sameOutside ht).par
  | started w rest _ _ _ _ ht => rw [ht, (startCommand_sameOutside _).par, latch_par]

end Sys2Proof.Machine
end

section
/-! The invariant (10_state.md R14 to R19, 20_memory.md R43): what a state at the beginning of a transfer needs, and
that beginning a command, every control transfer, a run of them and every action of the outside world keep it. -/

namespace Sys2Proof.Machine.State

variable {s : State}

/-! ### The buffers -/

theorem capture_bufInv (h : s.BufInv) (hp : s.part ≤ s.windowSize) : s.capture.BufInv := by
  obtain ⟨hi, ho, ht, hw⟩ := h
  rw [capture_eq]
  refine ⟨hi, ho, ht, ?_⟩
  show s.nextWindow.length = s.windowSize
  simp only [nextWindow, nextBytes, List.length_append, List.length_take, length_linkBytes, windowRest]
  omega

theorem loadTxf_bufInv {f : List Byte} (h : s.BufInv) (hf : f.length = s.frameSize) : (s.loadTxf f).BufInv := by
  obtain ⟨hi, ho, -, hw⟩ := h
  exact ⟨hi, ho, hf, hw⟩

theorem obufStore_bufInv (base : Nat) (bs : List Byte) (h : s.BufInv) : (s.obufStore base bs).BufInv := by
  obtain ⟨hi, ho, ht, hw⟩ := h
  exact ⟨hi, Memory.wf_writeBytes base bs ho, ht, hw⟩

theorem loadWin_bufInv (h : s.BufInv) : s.loadWin.BufInv := by
  obtain ⟨hi, ho, ht, -⟩ := h
  exact ⟨hi, ho, ht, Memory.length_readBytes _ _ _⟩

/-! ### The beginning of a transfer, and Idle -/

/-- A transfer at its first request is short of its last. -/
theorem partInv_of_zero (h : s.part = 0) : s.PartInv := by
  simp [PartInv, h]

theorem inv_of_idle (hf : s.fsm = .idle) (hb : s.BufInv) (hp : s.part = 0) (hl : s.line = []) : s.Inv :=
  ⟨hb, partInv_of_zero hp, ⟨fun _ => hl, by simp [hf]⟩, by simp [hf], by simp [hf], by simp [hf]⟩

/-- An idle block is in no transfer and has kept nothing of the line. -/
theorem Inv.idle (h : s.Inv) (hf : s.fsm = .idle) : s.BufInv ∧ s.part = 0 ∧ s.line = [] := by
  obtain ⟨hbuf, ⟨hpart, -⟩, ⟨hline, -⟩, -⟩ := h
  exact ⟨hbuf, hpart (by simp [hf]), hline (by simp [hf])⟩

theorem Inv.buf (h : s.Inv) : s.BufInv := h.1

theorem Inv.part (h : s.Inv) : s.PartInv := h.2.1

theorem complete_inv (r : Result) (h : s.BufInv) : (s.complete r).Inv := inv_of_idle rfl h rfl rfl

/-! ### SEND -/

/-- SEND is at a packet of its message: what `SendInv` says but for TXF and blocking. -/
structure SendsPacket (s : State) : Prop where
  buf : s.BufInv
  waiting : s.resValid = false
  op : s.cmd.op = 0xA
  pkts : s.work.pkts.toNat = packetCount s.cmd.n.toNat s.payloadSize
  k_lt : s.work.k.toNat < s.work.pkts.toNat

/-- TXF holds the Data frame of the packet in flight (10_state.md R19). -/
abbrev HoldsPacket (s : State) : Prop := s.txf = s.packetFrame s.cmd.a s.cmd.n.toNat s.work.k.toNat

theorem SendsPacket.inv (h : s.SendsPacket) (ht : s.HoldsPacket) (hf : s.fsm.sendSide)
    (hb : s.fsm ≠ .sending ∨ s.prog.resend = true → s.cmd.blk = true) (hp : s.part = 0)
    (hl : s.fsm.listens = false → s.line = []) : s.Inv := by
  refine ⟨h.buf, partInv_of_zero hp, ⟨hl, fun hu => ?_⟩, fun _ => h.waiting,
    fun _ => ⟨h.op, h.pkts, h.k_lt, ht, hb⟩, fun hr => ?_⟩
  · simp [hu, Fsm.sendSide] at hf
  · rcases hr with hr | hr <;> simp [hr, Fsm.sendSide] at hf

/-- Only a blocking SEND goes on with the frame it has sent. -/
theorem SendsPacket.setFsm_inv {f : Fsm} (h : s.SendsPacket) (ht : s.HoldsPacket) (hb : s.cmd.blk = true)
    (hf : f.sendSide) : (s.setFsm f).Inv :=
  SendsPacket.inv ⟨h.buf, h.waiting, h.op, h.pkts, h.k_lt⟩ ht hf (fun _ => hb) rfl fun hl => by simp_all

theorem Inv.sends (h : s.Inv) (hf : s.fsm.sendSide) :
    s.SendsPacket ∧ s.HoldsPacket ∧ (s.fsm ≠ .sending ∨ s.prog.resend = true → s.cmd.blk = true) := by
  obtain ⟨hbuf, -, -, hval, hsend, -⟩ := h
  obtain ⟨hop, hpkts, hk, htxf, hblk⟩ := hsend hf
  exact ⟨⟨hbuf, hval fun hi => by simp [hi, Fsm.sendSide] at hf, hop, hpkts, hk⟩, htxf, hblk⟩

theorem buildPacket_inv (h : s.SendsPacket) : s.buildPacket.Inv := by
  have htxf : s.buildPacket.HoldsPacket := by
    show encodeData s.cmd.a s.cfg.myaddr (s.chunk s.opSize s.work.k.toNat) = _
    rw [opSize_send h.op]
    rfl
  exact SendsPacket.inv ⟨loadTxf_bufInv h.buf (by simp), h.waiting, h.op, h.pkts, h.k_lt⟩ htxf (Or.inl rfl)
    (by simp [buildPacket]) rfl fun _ => rfl

theorem nextPacket_inv (h : s.SendsPacket) : s.nextPacket.Inv := by
  unfold nextPacket
  split
  · rename_i hk
    have hn : (s.work.k + 1).toNat = s.work.k.toNat + 1 := by bv_omega
    exact buildPacket_inv (s := s.setK (s.work.k + 1)) ⟨h.buf, h.waiting, h.op, h.pkts, hn ▸ hk⟩
  · exact complete_inv _ h.buf

theorem transmit_sends (h : s.SendsPacket) : s.transmit.SendsPacket := by
  rw [transmit_eq]
  exact ⟨h.buf, h.waiting, h.op, h.pkts, h.k_lt⟩

theorem transmit_holds (h : s.HoldsPacket) : s.transmit.HoldsPacket := by
  rw [transmit_eq]
  exact h

theorem tickSending_inv (h : s.Inv) (hf : s.fsm = .sending) : s.tickSending.Inv := by
  obtain ⟨hs, ht, hb⟩ := h.sends (Or.inl hf)
  have hs' := transmit_sends hs
  have ht' := transmit_holds ht
  have hc := (transmit_sameOutside s).cmd
  unfold tickSending
  split
  · rename_i hr
    exact SendsPacket.setFsm_inv (s := s.transmit.setAttempts _)
      ⟨hs'.buf, hs'.waiting, hs'.op, hs'.pkts, hs'.k_lt⟩ ht' (by simpa [hc] using hb (Or.inr hr)) (by decide)
  · have hd : (s.transmit.linkDelay s.par.settleUnits).SendsPacket :=
      ⟨hs'.buf, hs'.waiting, hs'.op, hs'.pkts, hs'.k_lt⟩
    unfold afterFirst
    split
    · rename_i hbl
      rw [opBlk_send hd.op] at hbl
      exact SendsPacket.setFsm_inv (s := (s.transmit.linkDelay _).setAttempts 0)
        ⟨hd.buf, hd.waiting, hd.op, hd.pkts, hd.k_lt⟩ ht' hbl (by decide)
    · exact nextPacket_inv hd

theorem tickAwaitingAck_inv (h : s.Inv) (hf : s.fsm = .awaitingAck) : s.tickAwaitingAck.Inv := by
  obtain ⟨hs, ht, hb⟩ := h.sends (by simp [hf, Fsm.sendSide])
  obtain ⟨-, -, -, -, hpart⟩ := h.part
  have hbuf : s.capture.BufInv := capture_bufInv hs.buf (Nat.le_of_lt (hpart (by simp [hf])))
  have hs' : (s.capture.scanned s.cfg.myaddr true).SendsPacket := by
    rw [capture_eq] at hbuf ⊢
    exact ⟨hbuf, hs.waiting, hs.op, hs.pkts, hs.k_lt⟩
  have ht' : (s.capture.scanned s.cfg.myaddr true).HoldsPacket := by
    rw [capture_eq]
    exact ht
  have hb' : (s.capture.scanned s.cfg.myaddr true).cmd.blk = true := by
    rw [scanned_cmd, (capture_sameOutside s).cmd]
    exact hb (by simp [hf])
  unfold tickAwaitingAck judgeAttempt
  split
  · exact hs'.setFsm_inv ht' hb' (by decide)
  · split <;> exact hs'.setFsm_inv ht' hb' (by decide)

theorem tickRetrying_inv (h : s.Inv) (hf : s.fsm = .retrying) : s.tickRetrying.Inv := by
  obtain ⟨hs, ht, hb⟩ := h.sends (by simp [hf, Fsm.sendSide])
  exact SendsPacket.setFsm_inv (s := (s.linkDelay _).setResend true)
    ⟨hs.buf, hs.waiting, hs.op, hs.pkts, hs.k_lt⟩ ht (hb (by simp [hf])) (by decide)

/-! ### RECV and RECVACK -/

/-- RECV or RECVACK is at a whole number of appended packets: what `RecvInv` says in every control state. -/
structure Receives (s : State) : Prop where
  buf : s.BufInv
  waiting : s.resValid = false
  op : s.cmd.op = 0xB ∨ s.cmd.op = 0xC
  pkts : s.work.pkts.toNat = packetCount s.opSize s.payloadSize
  whole : s.work.bytesDone.toNat % s.payloadSize = 0

/-- A pass may begin: the message is not complete, and the count is within the passes made (44_recv.md R122, R123). -/
abbrev PassDue (s : State) : Prop :=
  if s.opBlk then s.work.bytesDone.toNat < s.opSize
  else s.work.k.toNat < s.work.pkts.toNat ∧ s.work.bytesDone.toNat ≤ s.work.k.toNat * s.payloadSize

theorem Inv.receives (h : s.Inv) (hf : s.fsm.recvSide) : s.Receives := by
  obtain ⟨hbuf, -, -, hval, -, hrecv⟩ := h
  obtain ⟨hop, hpkts, hmod, -, -⟩ := hrecv hf
  exact ⟨hbuf, hval fun hi => by simp [hi, Fsm.recvSide] at hf, hop, hpkts, hmod⟩

theorem recvHead_inv (h : s.Receives)
    (hc : s.opBlk = false → s.work.bytesDone.toNat ≤ s.work.k.toNat * s.payloadSize) : s.recvHead.Inv := by
  unfold recvHead
  split
  · exact complete_inv _ h.buf
  · rename_i hd
    have hpass : s.PassDue := by
      unfold recvDone at hd
      unfold PassDue
      split <;> simp_all
    exact ⟨h.buf, partInv_of_zero rfl, ⟨by simp, by simp⟩, fun _ => h.waiting, by simp,
      fun _ => ⟨h.op, h.pkts, h.whole, fun _ => hpass, by simp⟩⟩

theorem recvNext_inv (h : s.Receives)
    (hk : s.opBlk = false → s.work.k.toNat < s.work.pkts.toNat ∧
      s.work.bytesDone.toNat ≤ (s.work.k.toNat + 1) * s.payloadSize) : s.recvNext.Inv := by
  unfold recvNext
  split
  · rename_i hb
    exact recvHead_inv h (by simp [hb])
  · rename_i hb
    obtain ⟨hlt, hle⟩ := hk (by simpa using hb)
    have hn : (s.work.k + 1).toNat = s.work.k.toNat + 1 := by bv_omega
    exact recvHead_inv (s := s.setK (s.work.k + 1)) ⟨h.buf, h.waiting, h.op, h.pkts, h.whole⟩ fun _ => hn ▸ hle

/-- The count does not wrap when a payload is appended (20_memory.md R43). -/
theorem recvAppend_bytesDone (o : Nat) (hp : s.PassDue) :
    (s.recvAppend o).work.bytesDone.toNat = s.work.bytesDone.toNat + s.payloadSize := by
  have hP : s.payloadSize ≤ 251 := s.par.payloadSize_le
  have hbd : s.work.bytesDone.toNat ≤ 255 * 251 := by
    unfold PassDue at hp
    split at hp
    · have := s.opSize_le
      omega
    · obtain ⟨-, hle⟩ := hp
      exact hle.trans (Nat.mul_le_mul (Nat.le_of_lt_succ s.work.k.isLt) hP)
  show (s.work.bytesDone + BitVec.ofNat 16 s.payloadSize).toNat = _
  rw [BitVec.toNat_add, BitVec.toNat_ofNat]
  omega

theorem recvAppend_receives (o : Nat) (h : s.Receives) (hp : s.PassDue) : (s.recvAppend o).Receives := by
  refine ⟨obufStore_bufInv _ _ h.buf, h.waiting, h.op, h.pkts, ?_⟩
  rw [recvAppend_bytesDone o hp]
  exact (Nat.add_mod_right _ _).trans h.whole

theorem recvCase_inv (r : SyncResult) (h : s.Receives) (hp : s.PassDue) : (s.recvCase r).Inv := by
  have hnb : s.opBlk = false → s.work.k.toNat < s.work.pkts.toNat ∧
      s.work.bytesDone.toNat ≤ s.work.k.toNat * s.payloadSize := fun hb => by simpa [PassDue, hb] using hp
  cases r with
  | none => exact recvNext_inv h fun hb => ⟨(hnb hb).1, (hnb hb).2.trans (Nat.mul_le_mul_right _ (Nat.le_succ _))⟩
  | ack o e => exact complete_inv _ h.buf
  | data o =>
    have ha := recvAppend_receives o h hp
    show ((s.recvAppend o).afterAppend o).Inv
    unfold afterAppend
    split
    · rename_i hb
      exact recvHead_inv ha (by simp [hb])
    · rename_i hb
      have hb : s.opBlk = false := Bool.eq_false_iff.mpr hb
      obtain ⟨hlt, hle⟩ := hnb hb
      have hcount : (s.recvAppend o).work.bytesDone.toNat ≤ (s.work.k.toNat + 1) * s.payloadSize := by
        rw [recvAppend_bytesDone o hp, Nat.succ_mul]
        exact Nat.add_le_add_right hle _
      exact ⟨loadTxf_bufInv ha.buf (by simp), partInv_of_zero rfl, ⟨fun _ => rfl, by simp [buildReply]⟩,
        fun _ => ha.waiting, by simp [buildReply],
        fun _ => ⟨ha.op, ha.pkts, ha.whole, by simp [buildReply], fun _ => ⟨hb, hlt, hcount⟩⟩⟩

theorem tickReceiving_inv (h : s.Inv) (hf : s.fsm = .receiving) : s.tickReceiving.Inv := by
  have hr := h.receives (Or.inl hf)
  obtain ⟨-, -, -, -, hpart⟩ := h.part
  obtain ⟨-, -, -, -, -, hrecv⟩ := h
  obtain ⟨-, -, -, hpass, -⟩ := hrecv (Or.inl hf)
  have hbuf : s.capture.BufInv := capture_bufInv hr.buf (Nat.le_of_lt (hpart (by simp [hf])))
  unfold tickReceiving
  refine recvCase_inv _ ?_ ?_ <;> rw [capture_eq] at *
  · exact ⟨hbuf, hr.waiting, hr.op, hr.pkts, hr.whole⟩
  · exact hpass hf

theorem tickReplying_inv (h : s.Inv) (hf : s.fsm = .replying) : s.tickReplying.Inv := by
  have hr := h.receives (Or.inr hf)
  obtain ⟨-, -, -, -, -, hrecv⟩ := h
  obtain ⟨-, -, -, -, hreply⟩ := hrecv (Or.inr hf)
  obtain ⟨-, hlt, hle⟩ := hreply hf
  unfold tickReplying
  rw [transmit_eq]
  exact recvNext_inv ⟨hr.buf, hr.waiting, hr.op, hr.pkts, hr.whole⟩ fun _ => ⟨hlt, hle⟩

/-! ### The one-step commands -/

theorem emitFrame_inv {f : List Byte} (h : s.BufInv) (hf : f.length = s.frameSize) : (s.emitFrame f).Inv :=
  complete_inv _ (obufStore_bufInv _ _ (loadTxf_bufInv h hf))

theorem finishSync_inv (h : s.BufInv) : s.finishSync.Inv := by
  have hw : (s.loadWin.scanned s.cmd.a s.cmd.ako).BufInv := loadWin_bufInv (s := s) h
  unfold finishSync syncCase
  split
  · exact complete_inv _ hw
  · exact complete_inv _ (obufStore_bufInv _ _ hw)
  · exact complete_inv _ hw

theorem finishUnit_inv (h : s.BufInv) : s.finishUnit.Inv := by
  unfold finishUnit
  split
  case h_6 => exact emitFrame_inv h (by simp [encdFrame, ibufBytes])
  case h_7 => exact emitFrame_inv h (by simp [encaFrame])
  case h_8 => exact complete_inv _ (obufStore_bufInv _ _ h)
  case h_9 => exact finishSync_inv h
  all_goals exact complete_inv _ h

/-! ### A transfer, a command's beginning and a run -/

theorem tick_inv (h : s.Inv) : s.tick.Inv := by
  obtain ⟨f, hf⟩ : ∃ f, s.fsm = f := ⟨_, rfl⟩
  cases f with
  | idle => rwa [tick_idle hf]
  | sending => rw [tick_sending hf]; exact tickSending_inv h hf
  | awaitingAck => rw [tick_awaitingAck hf]; exact tickAwaitingAck_inv h hf
  | acked => rw [tick_acked hf]; exact nextPacket_inv (h.sends (by simp [hf, Fsm.sendSide])).1
  | retrying => rw [tick_retrying hf]; exact tickRetrying_inv h hf
  | timedOut => rw [tick_timedOut hf]; exact complete_inv _ h.buf
  | receiving => rw [tick_receiving hf]; exact tickReceiving_inv h hf
  | replying => rw [tick_replying hf]; exact tickReplying_inv h hf
  | unit => rw [tick_unit hf]; exact finishUnit_inv h.buf

theorem startSend_inv (hb : s.BufInv) (hv : s.resValid = false) (hop : s.cmd.op = 0xA) : s.startSend.Inv := by
  unfold startSend
  split
  · exact complete_inv _ hb
  · rename_i hn
    have hpkts : s.countPackets.work.pkts.toNat = packetCount s.opSize s.payloadSize := pkts_toNat s
    refine buildPacket_inv (s := s.countPackets.setK 0) ⟨hb, hv, hop, ?_, ?_⟩
    · rw [opSize_send hop] at hpkts
      exact hpkts
    · show 0 < s.countPackets.work.pkts.toNat
      rw [hpkts]
      exact packetCount_pos hn

theorem startRecv_inv (hb : s.BufInv) (hv : s.resValid = false) (hop : s.cmd.op = 0xB ∨ s.cmd.op = 0xC) :
    s.startRecv.Inv :=
  recvHead_inv (s := s.dropLine.countPackets.clearRecv) ⟨hb, hv, hop, pkts_toNat s, Nat.zero_mod _⟩
    fun _ => Nat.zero_le _

/-- How a command begins, by its opcode. -/
theorem startCommand_cases (s : State) :
    (s.cmd.op = 0xA ∧ s.startCommand = s.startSend) ∨
    ((s.cmd.op = 0xB ∨ s.cmd.op = 0xC) ∧ s.startCommand = s.startRecv) ∨
    ((s.cmd.op ≠ 0xA ∧ s.cmd.op ≠ 0xB ∧ s.cmd.op ≠ 0xC) ∧ s.startCommand = s.setFsm .unit) := by
  unfold startCommand
  split
  · rename_i h; exact Or.inl ⟨BitVec.eq_of_toNat_eq h, rfl⟩
  · rename_i h; exact Or.inr (Or.inl ⟨Or.inl (BitVec.eq_of_toNat_eq h), rfl⟩)
  · rename_i h; exact Or.inr (Or.inl ⟨Or.inr (BitVec.eq_of_toNat_eq h), rfl⟩)
  · rename_i hA hB hC
    have hop : s.cmd.op ≠ 0xA ∧ s.cmd.op ≠ 0xB ∧ s.cmd.op ≠ 0xC :=
      ⟨fun h => hA (by simp [h]), fun h => hB (by simp [h]), fun h => hC (by simp [h])⟩
    exact Or.inr (Or.inr ⟨hop, rfl⟩)

theorem startCommand_inv (hb : s.BufInv) (hv : s.resValid = false) : s.startCommand.Inv := by
  rcases startCommand_cases s with ⟨hop, h⟩ | ⟨hop, h⟩ | ⟨hop, h⟩ <;> rw [h]
  · exact startSend_inv hb hv hop
  · exact startRecv_inv hb hv hop
  · exact ⟨hb, partInv_of_zero rfl, ⟨fun _ => rfl, fun _ => hop⟩, fun _ => hv, by simp, by simp⟩

theorem run_inv (n : Nat) (h : s.Inv) : (run n s).Inv := run_induction (fun _ ht _ => tick_inv ht) n h

/-! ### The outside world's actions -/

theorem hear_inv (bytes : List Byte) (h : s.Inv) : (s.hear bytes).Inv := by
  obtain ⟨hbuf, hpart, ⟨hline, hunit⟩, hrest⟩ := h
  refine ⟨hbuf, hpart, ⟨fun hl => ?_, hunit⟩, hrest⟩
  have hl : s.fsm.listens = false := hl
  rw [hear_line, hl]
  exact hline hl

theorem firstAccesses_obuf_wf (m : Nat) (h : Memory.wf s.obuf = true) :
    Memory.wf (s.firstAccesses m).obuf = true := by
  have hcap : Memory.wf (s.captureAccesses m).obuf = true := by rwa [captureAccesses, recvBytes_eq]
  unfold firstAccesses
  split
  · exact h
  · unfold sendingAccesses
    split
    · rwa [transmit_eq]
    · rwa [sendBytes_eq]
  · exact hcap
  · exact h
  · split <;> exact h
  · exact h
  · unfold receivingAccesses
    split
    · exact hcap
    · rw [obufStore_obuf, capture_eq]
      exact Memory.wf_writeBytes _ _ h
  · rwa [sendBytes_eq]
  · exact Memory.wf_writeBytes _ _ h

theorem resetAfter_inv (m : Nat) (h : s.BufInv) : (s.resetAfter m).Inv := by
  obtain ⟨hi, ho, -, -⟩ := h
  refine inv_of_idle rfl ⟨?_, firstAccesses_obuf_wf _ ho, List.length_replicate, List.length_replicate⟩ rfl rfl
  rw [resetAfter, afterReset_ibuf, (firstAccesses_partOf s _).ibuf]
  exact hi

/-- A transmission the link stalls waits short of its last request. -/
theorem transmitPart_inv (m : Nat) (h : s.Inv) (hp : PartInv { s with part := s.part + m }) :
    (s.transmitPart m).Inv := by
  obtain ⟨hbuf, -, hrest⟩ := h
  rw [transmitPart, sendBytes_eq]
  exact ⟨hbuf, hp, hrest⟩

/-- A capture the link stalls has its bytes in their places of WIN. -/
theorem capturePart_inv (m : Nat) (h : s.Inv) (hf : s.fsm = .awaitingAck ∨ s.fsm = .receiving)
    (hm : s.part + m < s.windowSize) : (s.capturePart m).Inv := by
  obtain ⟨⟨hi, ho, ht, hw⟩, -, ⟨-, hunit⟩, hrest⟩ := h
  have hpart : PartInv { s with part := s.part + m } := by
    rcases hf with hf | hf <;> simpa [PartInv, hf] using hm
  have hlisten : s.fsm.listens = true := by rcases hf with hf | hf <;> rw [hf] <;> rfl
  rw [capturePart, recvBytes_eq]
  refine ⟨⟨hi, ho, ht, ?_⟩, hpart, ⟨fun hn => absurd (hlisten.symm.trans hn) (by decide), hunit⟩, hrest⟩
  show (s.win.take s.part ++ s.linkBytes m ++ s.win.drop (s.part + m)).length = s.windowSize
  simp only [List.length_append, List.length_take, List.length_drop, length_linkBytes]
  omega

theorem goOn_inv {m : Nat} (h : s.Inv) (hm : m ≤ s.requests - 1) : (s.goOn m).Inv := by
  obtain ⟨-, -, hsend, hreply, hcapture⟩ := h.part
  unfold goOn
  split
  case h_2 hf =>
    have hp := hsend hf
    simp only [requests, hf] at hm
    refine transmitPart_inv m h ?_
    cases hre : s.prog.resend <;> simp [PartInv, hf, hre] at hm hp ⊢ <;> omega
  case h_8 hf =>
    have hp := hreply hf
    simp only [requests, hf] at hm
    have hlt : s.part + m < s.frameSize := by omega
    exact transmitPart_inv m h (by simpa [PartInv, hf] using hlt)
  case h_3 hf =>
    have hp := hcapture (by simp [hf])
    simp only [requests, hf, windowRest] at hm
    exact capturePart_inv m h (Or.inl hf) (by omega)
  case h_7 hf =>
    have hp := hcapture (by simp [hf])
    simp only [requests, hf, windowRest] at hm
    exact capturePart_inv m h (Or.inr hf) (by omega)
  all_goals exact h

theorem fallSilent_inv (m : Nat) (h : s.Inv) : (s.fallSilent m).Inv := by
  have hg : (if s.silent then s else s.goOn (min m (s.requests - 1))).Inv := by
    split
    · exact h
    · exact goOn_inv h (Nat.min_le_right _ _)
  exact hg

end Sys2Proof.Machine.State

namespace Sys2Proof.Machine

open State

/-! ### What an accepted command does, said once -/

theorem runCommand_unit {s : State} (h : s.fsm = .unit) : s.runCommand = s.finishUnit := by
  show run (3 * (s.line.length + s.rx.length) + 519 + 1) s = _
  rw [run_tick s (by simp [h]) (by simp [awaitsLink, stalled, h]), tick_unit h, run_idle _ _ (finishUnit_fsm s)]

/-- Executing the command a latched word decodes to is beginning it and running it on: SEND, RECV and RECVACK are
executed so, and every other command is in Unit, where its run is its one transfer. -/
theorem exec_latched (w : CmdWord) (s : State) :
    exec (decodeCommand w) (s.latch w) = .next (s.latch w).startCommand.runCommand := by
  unfold decodeCommand latch
  generalize fieldOp w = op
  obtain ⟨n, hn⟩ := op
  interval_cases n
  -- The opcodes in order: 0x0 to 0x9 in Unit, then 0xA to 0xC, then 0xD to 0xF in Unit.
  iterate 10 · rw [runCommand_unit] <;> rfl
  iterate 3 · rfl
  iterate 3 · rw [runCommand_unit] <;> rfl

/-- Settles O15: each way a step can go keeps the invariant. -/
theorem stepKeepsInv : Obligations.StepKeepsInv := by
  intro s t h hst
  have hbuf := h.buf
  cases step_cases hst with
  | reset m rest _ ht => exact ht ▸ resetAfter_inv m hbuf
  | line bytes rest _ ht => exact ht ▸ hear_inv bytes h
  | transfer rest _ _ _ ht => exact ht ▸ tick_inv (s := { s with inputs := rest }) h
  | waits rest _ _ ht => exact ht ▸ h
  | stall m rest _ ht => exact ht ▸ fallSilent_inv m (s := { s with inputs := rest }) h
  | answer rest _ ht => exact ht ▸ h
  | still rest _ _ ht => exact ht ▸ h
  | take rest hf _ ht =>
    obtain ⟨-, hp, hl⟩ := h.idle hf
    exact ht ▸ inv_of_idle hf hbuf hp hl
  | writeIbuf addr b rest hf _ ht =>
    obtain ⟨⟨hi, ho, htx, hw⟩, hp, hl⟩ := h.idle hf
    exact ht ▸ inv_of_idle hf ⟨Memory.wf_write b hi addr.isLt, ho, htx, hw⟩ hp hl
  | writeObuf addr b rest hf _ ht =>
    obtain ⟨⟨hi, ho, htx, hw⟩, hp, hl⟩ := h.idle hf
    exact ht ▸ inv_of_idle hf ⟨hi, Memory.wf_write b ho addr.isLt, htx, hw⟩ hp hl
  | accept w rest _ hv _ _ ht =>
    rw [exec_latched] at ht
    cases ht
    exact run_inv _ (startCommand_inv hbuf hv)
  | started w rest _ hv _ _ ht => exact ht ▸ startCommand_inv hbuf hv

end Sys2Proof.Machine
end

section
/-! The configuration and the results over a step (10_state.md R10, R16), TXF over the attempts of a packet (R19), and
reset (R21). -/

namespace Sys2Proof.Machine.State

variable {s : State}

/-! ### The configuration -/

/-- The setter latched in `s` has its own register hold its operand, and the other registers keep their values
(45_config.md R140 to R143). -/
abbrev SetsOwnRegister (s : State) (c : NodeConfig) : Prop :=
  (s.cmd.op = 0x1 ∧ c = { s.cfg with myaddr := s.cmd.a }) ∨
  (s.cmd.op = 0x2 ∧ c = { s.cfg with tmoatt := s.cmd.a }) ∨
  (s.cmd.op = 0x3 ∧ c = { s.cfg with pinsel := s.cmd.a }) ∨
  (s.cmd.op = 0x4 ∧ c = { s.cfg with portsel := s.cmd.a })

theorem finishUnit_cfg (s : State) : s.finishUnit.cfg = s.cfg ∨ s.SetsOwnRegister s.finishUnit.cfg := by
  unfold finishUnit
  split
  case h_1 h => exact Or.inr (Or.inl ⟨BitVec.eq_of_toNat_eq h, rfl⟩)
  case h_2 h => exact Or.inr (Or.inr (Or.inl ⟨BitVec.eq_of_toNat_eq h, rfl⟩))
  case h_3 h => exact Or.inr (Or.inr (Or.inr (Or.inl ⟨BitVec.eq_of_toNat_eq h, rfl⟩)))
  case h_4 h => exact Or.inr (Or.inr (Or.inr (Or.inr ⟨BitVec.eq_of_toNat_eq h, rfl⟩)))
  case h_9 => exact Or.inl (finishSync_sameOutside s).cfg
  all_goals exact Or.inl rfl

theorem tick_cfg (s : State) : s.tick.cfg = s.cfg ∨ (s.fsm = .unit ∧ s.SetsOwnRegister s.tick.cfg) := by
  by_cases hu : s.fsm = .unit
  · rw [tick_unit hu]
    exact (finishUnit_cfg s).imp_right fun h => ⟨hu, h⟩
  · exact Or.inl (tick_sameOutside s hu).cfg

theorem startCommand_runCommand_cfg (s : State) :
    s.startCommand.runCommand.cfg = s.cfg ∨ s.SetsOwnRegister s.startCommand.runCommand.cfg := by
  rcases startCommand_cases s with ⟨-, h⟩ | ⟨-, h⟩ | ⟨-, h⟩ <;> rw [h]
  · exact Or.inl (runSend_sameOutside s).cfg
  · exact Or.inl (runRecv_sameOutside s).cfg
  · rw [runCommand_unit rfl]
    exact finishUnit_cfg (s.setFsm .unit)

/-! ### The results -/

/-- From `s` to `t` the results are kept, or a command has completed (10_state.md R16). -/
abbrev KeepsOrCompletes (s t : State) : Prop := t.res = s.res ∨ (t.fsm = .idle ∧ t.resValid = true)

theorem Progressed.keepsOrCompletes {t : State} (h : Progressed s t) : KeepsOrCompletes s t :=
  h.res.imp_right fun ⟨hf, hv, _⟩ => ⟨hf, hv⟩

theorem tick_keepsOrCompletes (s : State) : KeepsOrCompletes s s.tick := by
  by_cases hu : s.fsm = .unit
  · rw [tick_unit hu]
    obtain ⟨hf, hv, -⟩ := finishUnit_completes s
    exact Or.inr ⟨hf, hv⟩
  · exact (tick_progressed s hu).keepsOrCompletes

theorem startCommand_keepsOrCompletes (s : State) : KeepsOrCompletes s s.startCommand := by
  rcases startCommand_cases s with ⟨-, h⟩ | ⟨-, h⟩ | ⟨-, h⟩ <;> rw [h]
  · unfold startSend
    split
    · exact Or.inr ⟨rfl, rfl⟩
    · exact Or.inl rfl
  · exact (recvHead_progressed s.dropLine.countPackets.clearRecv).keepsOrCompletes
  · exact Or.inl rfl

/-- A run ends at the first completion, so it adds none to one that has been. -/
theorem run_keepsOrCompletes {t : State} (n : Nat) (h : KeepsOrCompletes s t) : KeepsOrCompletes s (run n t) :=
  run_induction (Q := KeepsOrCompletes s)
    (fun u hu hf => (tick_keepsOrCompletes u).imp_left (·.trans (hu.resolve_right fun hc => hf hc.1))) n h

/-! ### TXF over the attempts of a packet -/

theorem tickSending_resend_txf (h : s.prog.resend = true) : s.tickSending.txf = s.txf := by
  rw [tickSending, if_pos h, transmit_eq]
  rfl

theorem judgeAttempt_txf (s : State) (r : SyncResult) : (s.judgeAttempt r).txf = s.txf := by
  unfold judgeAttempt
  split
  · rfl
  · split <;> rfl

theorem tickAwaitingAck_txf (s : State) : s.tickAwaitingAck.txf = s.txf := by
  rw [tickAwaitingAck, judgeAttempt_txf, scanned_txf, capture_eq]

/-! ### Reset -/

theorem firstAccesses_idle (m : Nat) (h : s.fsm = .idle) : s.firstAccesses m = s := by
  unfold firstAccesses
  rw [h]

theorem resetAfter_cfg (s : State) (m : Nat) : (s.resetAfter m).cfg = s.par.resetCfg :=
  congrArg Params.resetCfg (firstAccesses_partOf s _).par

theorem resetAfter_ibuf (s : State) (m : Nat) : (s.resetAfter m).ibuf = s.ibuf := (firstAccesses_partOf s _).ibuf

/-- Reset cuts nothing short in Idle or before a transfer's first access. -/
theorem resetAfter_obuf {m : Nat} (h : s.fsm = .idle ∨ m = 0) : (s.resetAfter m).obuf = s.obuf := by
  rw [resetAfter, afterReset_obuf]
  rcases h with h | h
  · rw [firstAccesses_idle _ h]
  · rw [h, ite_self, firstAccesses_zero]

end Sys2Proof.Machine.State

namespace Sys2Proof.Machine

open State

/-- Reset reaches the block whatever it does. -/
theorem step_reset {s : State} {m : Nat} {rest : List Input} (hi : s.inputs = .rst m :: rest) :
    step s = .next ({ s with inputs := rest }.resetAfter m) := by
  unfold step idleStep busyStep
  rw [hi]
  exact ite_self _

/-- Settles O7: a control transfer outside Unit keeps the configuration, and one in Unit is the latched command's. -/
theorem configChangesOnlyBySetters : Obligations.ConfigChangesOnlyBySetters := by
  intro s t h
  cases step_cases h with
  | reset m rest hi ht => exact Or.inr (Or.inl ⟨m, rest, hi, ht ▸ resetAfter_cfg _ m⟩)
  | line bytes rest _ ht => exact Or.inl (by rw [ht, hear_cfg])
  | transfer rest _ _ _ ht =>
    exact ht ▸ (tick_cfg { s with inputs := rest }).imp_right fun hset => Or.inr (Or.inr hset)
  | waits rest _ _ ht => exact Or.inl (by rw [ht])
  | stall m rest _ ht =>
    obtain ⟨_, hsil⟩ := fallSilent_eq { s with inputs := rest } m
    exact Or.inl (by rw [ht, hsil])
  | answer rest _ ht => exact Or.inl (by rw [ht, linkAnswers_cfg])
  | still rest _ _ ht => exact Or.inl (by rw [ht])
  | take rest _ _ ht => exact Or.inl (by rw [ht, takeResult_cfg])
  | writeIbuf addr b rest _ _ ht => exact Or.inl (by rw [ht, hostWriteIbuf_cfg])
  | writeObuf addr b rest _ _ ht => exact Or.inl (by rw [ht, hostWriteObuf_cfg])
  | accept w rest hf hv hi _ ht =>
    rw [exec_latched] at ht
    cases ht
    exact (startCommand_runCommand_cfg (latch { s with inputs := rest } w)).imp_right fun hset =>
      Or.inr (Or.inl ⟨w, rest, hi, by simp [cmdReady, hf, hv], hset⟩)
  | started w rest _ _ _ _ ht => exact Or.inl (by rw [ht, (startCommand_sameOutside _).cfg, latch_cfg])

/-- Settles O8: every transfer of a command keeps the results or completes it, and a run ends at its completion. -/
theorem resultsChangeOnlyAtCompletion : Obligations.ResultsChangeOnlyAtCompletion := by
  intro s t h
  cases step_cases h with
  | reset m rest hi ht => exact Or.inr (Or.inr ⟨m, rest, hi, by rw [ht]; rfl⟩)
  | line bytes rest _ ht => exact Or.inl (by rw [ht, hear_res])
  | transfer rest hf _ _ ht =>
    exact ht ▸ (tick_keepsOrCompletes { s with inputs := rest }).imp_right fun ⟨hi, hv⟩ =>
      Or.inl ⟨hi, hv, Or.inl hf⟩
  | waits rest _ _ ht => exact Or.inl (by rw [ht])
  | stall m rest _ ht =>
    obtain ⟨_, hsil⟩ := fallSilent_eq { s with inputs := rest } m
    exact Or.inl (by rw [ht, hsil])
  | answer rest _ ht => exact Or.inl (by rw [ht, linkAnswers_res])
  | still rest _ _ ht => exact Or.inl (by rw [ht])
  | take rest _ _ ht => exact Or.inl (by rw [ht, takeResult_res])
  | writeIbuf addr b rest _ _ ht => exact Or.inl (by rw [ht, hostWriteIbuf_res])
  | writeObuf addr b rest _ _ ht => exact Or.inl (by rw [ht, hostWriteObuf_res])
  | accept w rest hf hv hi _ ht =>
    rw [exec_latched] at ht
    cases ht
    exact (run_keepsOrCompletes _ (startCommand_keepsOrCompletes (latch { s with inputs := rest } w))).imp_right
      fun ⟨hidle, hvalid⟩ => Or.inl ⟨hidle, hvalid, Or.inr ⟨by simp [cmdReady, hf, hv], w, rest, hi⟩⟩
  | started w rest hf hv hi _ ht =>
    exact ht ▸ (startCommand_keepsOrCompletes (latch { s with inputs := rest } w)).imp_right
      fun ⟨hidle, hvalid⟩ => Or.inl ⟨hidle, hvalid, Or.inr ⟨by simp [cmdReady, hf, hv], w, rest, hi⟩⟩

/-- Settles O17: none of the three transfers builds a frame. -/
theorem retransmissionKeepsFrame : Obligations.RetransmissionKeepsFrame := by
  intro s t hf hq h
  have hbusy : s.fsm ≠ .idle := by rcases hf with hf | hf | ⟨hf, -⟩ <;> simp [hf]
  have htick : s.tick.txf = s.txf := by
    rcases hf with hf | hf | ⟨hf, hr⟩
    · rw [tick_awaitingAck hf, tickAwaitingAck_txf]
    · rw [tick_retrying hf]
      rfl
    · rw [tick_sending hf, tickSending_resend_txf hr]
  rw [step_transfer hbusy hq] at h
  cases h
  exact transfer_induction s (Q := fun u => u.txf = s.txf) rfl htick

/-- Settles O12: the cut transfer leaves IBUF and the parameters, and `afterReset` is the table. -/
theorem resetLeavesTableValues : Obligations.ResetLeavesTableValues := by
  intro s m rest hi
  exact ⟨_, step_reset hi, resetAfter_cfg _ m, rfl, rfl, rfl, rfl, rfl, resetAfter_ibuf _ m, rfl, rfl,
    resetAfter_obuf (s := { s with inputs := rest })⟩

/-- Settles O14: State.reset is idle, at no request and with nothing heard, its buffers empty or all zeros. -/
theorem invHoldsAtReset : Obligations.InvHoldsAtReset :=
  inv_of_idle rfl ⟨rfl, rfl, List.length_replicate, List.length_replicate⟩ rfl rfl

end Sys2Proof.Machine
end

section
/-! OBUF (20_memory.md R32, R43): the bytes a control transfer writes there, the bound the invariant puts on their
addresses, and that no step of the block writes above it. -/

namespace Sys2Proof.Machine

theorem length_slice_le (bs : List Byte) (lo n : Nat) : (slice bs lo n).length ≤ n := List.length_take_le n _

theorem SyncResult.length_stores_le (r : SyncResult) (p : Nat) (w : List Byte) : (r.stores p w).length ≤ p := by
  cases r with
  | none => exact Nat.zero_le p
  | data o => exact length_slice_le w (o + 3) p
  | ack o e => exact Nat.zero_le p

namespace State

variable {s : State}

/-! ### What a transfer writes to OBUF -/

/-- Where the transfer under way writes OBUF: a pass of RECV appends at `bytes_done`, a one-step command writes from
index 0 on (R43). -/
def transferBase (s : State) : Nat := if s.fsm = .receiving then s.work.bytesDone.toNat else 0

/-- The bytes the whole transfer under way writes there. -/
def transferStores (s : State) : List Byte :=
  if s.fsm = .receiving then (s.capture.scanResult s.cfg.myaddr s.opAko).stores s.payloadSize s.capture.win
  else if s.fsm = .unit then s.unitStores
  else []

theorem nextPacket_obuf (s : State) : s.nextPacket.obuf = s.obuf := by
  unfold nextPacket
  split <;> rfl

theorem tickSending_obuf (s : State) : s.tickSending.obuf = s.obuf := by
  unfold tickSending afterFirst
  rw [transmit_eq]
  split
  · rfl
  · split
    · rfl
    · exact nextPacket_obuf _

theorem tickAwaitingAck_obuf (s : State) : s.tickAwaitingAck.obuf = s.obuf := by
  unfold tickAwaitingAck judgeAttempt
  rw [capture_eq]
  split
  · rfl
  · split <;> rfl

theorem recvHead_obuf (s : State) : s.recvHead.obuf = s.obuf := by
  unfold recvHead
  split <;> rfl

theorem recvNext_obuf (s : State) : s.recvNext.obuf = s.obuf := by
  unfold recvNext
  split <;> exact recvHead_obuf _

theorem tickReplying_obuf (s : State) : s.tickReplying.obuf = s.obuf := by
  rw [tickReplying, recvNext_obuf, transmit_eq]

/-- A pass appends what its scan hands on, and nothing else. -/
theorem recvCase_obuf (s : State) (r : SyncResult) :
    (s.recvCase r).obuf = Memory.writeBytes s.obuf s.work.bytesDone.toNat (r.stores s.payloadSize s.win) := by
  cases r with
  | none => exact recvNext_obuf s
  | ack o e => rfl
  | data o =>
    show ((s.recvAppend o).afterAppend o).obuf = (s.recvAppend o).obuf
    unfold afterAppend
    split
    · exact recvHead_obuf _
    · rfl

theorem tickReceiving_obuf (s : State) :
    s.tickReceiving.obuf = Memory.writeBytes s.obuf s.work.bytesDone.toNat
      ((s.capture.scanResult s.cfg.myaddr s.opAko).stores s.payloadSize s.capture.win) := by
  rw [tickReceiving, recvCase_obuf, capture_eq]
  rfl

theorem syncCase_obuf (s : State) (r : SyncResult) :
    (s.syncCase r).obuf = Memory.writeBytes s.obuf 0 (r.stores s.payloadSize s.win) := by
  cases r <;> rfl

theorem finishUnit_obuf (s : State) : s.finishUnit.obuf = Memory.writeBytes s.obuf 0 s.unitStores := by
  unfold finishUnit unitStores
  generalize s.cmd.op.toNat = n
  split
  case h_9 => exact syncCase_obuf (s.loadWin.scanned s.cmd.a s.cmd.ako) _
  case h_13 => simp only [*]; rfl
  all_goals rfl

/-- A control transfer writes its bytes to OBUF and changes no other of it. -/
theorem tick_obuf (s : State) : s.tick.obuf = Memory.writeBytes s.obuf s.transferBase s.transferStores := by
  obtain ⟨f, hf⟩ : ∃ f, s.fsm = f := ⟨_, rfl⟩
  simp only [transferBase, transferStores, hf]
  cases f with
  | idle => rw [tick_idle hf]; rfl
  | sending => rw [tick_sending hf]; exact tickSending_obuf s
  | awaitingAck => rw [tick_awaitingAck hf]; exact tickAwaitingAck_obuf s
  | acked => rw [tick_acked hf]; exact nextPacket_obuf s
  | retrying => rw [tick_retrying hf]; rfl
  | timedOut => rw [tick_timedOut hf]; rfl
  | receiving => rw [tick_receiving hf]; exact tickReceiving_obuf s
  | replying => rw [tick_replying hf]; exact tickReplying_obuf s
  | unit => rw [tick_unit hf]; exact finishUnit_obuf s

theorem captureAccesses_obuf (s : State) (m : Nat) : (s.captureAccesses m).obuf = s.obuf := by
  rw [captureAccesses, recvBytes_eq]

theorem sendingAccesses_obuf (s : State) (m : Nat) : (s.sendingAccesses m).obuf = s.obuf := by
  unfold sendingAccesses
  split
  · rw [transmit_eq]; rfl
  · rw [sendBytes_eq]

/-- A pass's append follows its capture (R44). -/
theorem receivingAccesses_obuf (s : State) (m : Nat) :
    (s.receivingAccesses m).obuf = Memory.writeBytes s.obuf s.work.bytesDone.toNat
      (((s.capture.scanResult s.cfg.myaddr s.opAko).stores s.payloadSize s.capture.win).take (m - s.windowRest)) := by
  unfold receivingAccesses
  split
  · rename_i hm
    rw [Nat.sub_eq_zero_of_le hm]
    exact captureAccesses_obuf s m
  · rw [obufStore_obuf, capture_eq]

/-- A transfer cut short after `m` accesses has written the first of its bytes. -/
theorem firstAccesses_obuf (s : State) (m : Nat) :
    (s.firstAccesses m).obuf = Memory.writeBytes s.obuf s.transferBase
      (s.transferStores.take (m - if s.fsm = .receiving then s.windowRest else 0)) := by
  obtain ⟨f, hf⟩ : ∃ f, s.fsm = f := ⟨_, rfl⟩
  cases f <;>
    simp only [firstAccesses, transferBase, transferStores, hf, reduceCtorEq, if_true, if_false, List.take_nil]
  case sending => exact sendingAccesses_obuf s m
  case awaitingAck => exact captureAccesses_obuf s m
  case retrying => split <;> rfl
  case receiving => exact receivingAccesses_obuf s m
  case replying => rw [sendBytes_eq]; rfl
  all_goals rfl

/-! ### The bound of R43 -/

/-- What a one-step command writes is at most a frame. -/
theorem length_unitStores_le (s : State) : s.unitStores.length ≤ s.frameSize := by
  unfold unitStores
  split
  · simp [encdFrame, ibufBytes]
  · simp [encaFrame]
  · exact (length_slice_le _ _ _).trans (Nat.le_add_right _ _)
  · exact (SyncResult.length_stores_le _ _ _).trans (Nat.le_add_right _ _)
  · exact Nat.zero_le _

/-- Where a pass of RECV may append, fewer than 255 bytes are in OBUF: a blocking RECV is below its size, and the
passes of a non-blocking one before the last make up less than its size. -/
theorem Receives.bytesDone_lt (h : s.Receives) (hp : s.PassDue) : s.work.bytesDone.toNat < 255 := by
  have hsize := s.opSize_le
  unfold PassDue at hp
  split at hp
  · omega
  · obtain ⟨hk, hle⟩ := hp
    rw [h.pkts] at hk
    have hne : s.opSize ≠ 0 := fun h0 => by simp [packetCount, h0] at hk
    have hlast := packetCount_mul_lt (p := s.payloadSize) hne
    have hpass : (s.work.k.toNat + 1) * s.payloadSize ≤ packetCount s.opSize s.payloadSize * s.payloadSize :=
      Nat.mul_le_mul_right _ hk
    rw [Nat.succ_mul] at hpass
    omega

/-- The largest OBUF index a transfer forms is at most 504. -/
theorem Inv.transferStores_le (h : s.Inv) : s.transferBase + s.transferStores.length ≤ 505 := by
  have hP : s.payloadSize ≤ 251 := s.par.payloadSize_le
  unfold transferBase transferStores
  split
  · rename_i hf
    have hr := h.receives (Or.inl hf)
    obtain ⟨-, -, -, -, -, hrecv⟩ := h
    obtain ⟨-, -, -, hpass, -⟩ := hrecv (Or.inl hf)
    have hbase := hr.bytesDone_lt (hpass hf)
    have hlen := SyncResult.length_stores_le (s.capture.scanResult s.cfg.myaddr s.opAko) s.payloadSize s.capture.win
    omega
  · split
    · have hlen : s.unitStores.length ≤ s.payloadSize + 4 := length_unitStores_le s
      omega
    · exact Nat.zero_le _

/-! ### Above it -/

/-- From `s` to `t` OBUF keeps every byte above index 504. -/
def KeepsObufAbove504 (s t : State) : Prop := ∀ x, 504 < x → Memory.read t.obuf x = Memory.read s.obuf x

theorem KeepsObufAbove504.of_eq {t : State} (h : t.obuf = s.obuf) : KeepsObufAbove504 s t := fun _ _ => by rw [h]

theorem KeepsObufAbove504.of_writeBytes {t : State} {base : Nat} {bs : List Byte}
    (h : t.obuf = Memory.writeBytes s.obuf base bs) (hb : base + bs.length ≤ 505) : KeepsObufAbove504 s t :=
  fun x hx => by rw [h, Memory.read_writeBytes_outside (by omega) (Or.inr (by omega))]

theorem Inv.tick_keepsObuf (h : s.Inv) : KeepsObufAbove504 s s.tick :=
  .of_writeBytes (tick_obuf s) h.transferStores_le

theorem Inv.resetAfter_keepsObuf (h : s.Inv) (m : Nat) : KeepsObufAbove504 s (s.resetAfter m) := by
  refine .of_writeBytes (firstAccesses_obuf s _) (Nat.le_trans ?_ h.transferStores_le)
  exact Nat.add_le_add_left (List.length_take_le' _ _) _

theorem startCommand_obuf (s : State) : s.startCommand.obuf = s.obuf := by
  rcases startCommand_cases s with ⟨-, h⟩ | ⟨-, h⟩ | ⟨-, h⟩ <;> rw [h]
  · unfold startSend
    split <;> rfl
  · exact recvHead_obuf _
  · rfl

theorem Inv.run_keepsObuf (n : Nat) (h : s.Inv) : KeepsObufAbove504 s (run n s) :=
  (run_induction (Q := fun u => u.Inv ∧ KeepsObufAbove504 s u)
    (fun _ ⟨hu, hk⟩ _ => ⟨tick_inv hu, fun x hx => (hu.tick_keepsObuf x hx).trans (hk x hx)⟩) n ⟨h, .of_eq rfl⟩).2

end State

open State

/-- Settles O16: every transfer of a run begins where the invariant holds, and writes no higher than it allows. -/
theorem obufIndexAtMost504 : Obligations.ObufIndexAtMost504 := by
  intro s t h hst hhost
  show KeepsObufAbove504 s t
  cases step_cases hst with
  | reset m rest _ ht => exact ht ▸ Inv.resetAfter_keepsObuf (s := { s with inputs := rest }) h m
  | line bytes rest _ ht => exact .of_eq (by rw [ht, hear_obuf])
  | transfer rest _ _ _ ht => exact ht ▸ Inv.tick_keepsObuf (s := { s with inputs := rest }) h
  | waits rest _ _ ht => exact .of_eq (by rw [ht])
  | stall m rest _ ht =>
    obtain ⟨_, hsil⟩ := fallSilent_eq { s with inputs := rest } m
    exact .of_eq (by rw [ht, hsil])
  | answer rest _ ht => exact .of_eq (by rw [ht, linkAnswers_obuf])
  | still rest _ _ ht => exact .of_eq (by rw [ht])
  | take rest _ _ ht => exact .of_eq (by rw [ht, takeResult_obuf])
  | writeIbuf addr b rest _ _ ht => exact .of_eq (by rw [ht, hostWriteIbuf_obuf])
  | writeObuf addr b rest hf hi _ => exact absurd hi (hhost hf addr b rest)
  | accept w rest _ hv _ _ ht =>
    rw [exec_latched] at ht
    cases ht
    have hstart := startCommand_inv (s := latch { s with inputs := rest } w) h.buf hv
    exact fun x hx => (hstart.run_keepsObuf _ x hx).trans (by rw [startCommand_obuf, latch_obuf])
  | started w rest _ _ _ _ ht => exact .of_eq (by rw [ht, startCommand_obuf, latch_obuf])

end Sys2Proof.Machine
end

section
/-! The link events performed and IBUF, over every step (20_memory.md R31, R42). -/

namespace Sys2Proof.Machine.State

variable {s : State}

/-! ### The events performed -/

/-- From `s` to `t` link events were only added, and none was put behind a reset (R42). -/
structure ExtendsTrace (s t : State) : Prop where
  past : t.past = s.past
  trace : ∃ new, t.trace = s.trace ++ new

theorem ExtendsTrace.of_eq {t : State} (h : t.past = s.past) (h' : t.trace = s.trace) : ExtendsTrace s t :=
  ⟨h, [], by rw [h', List.append_nil]⟩

theorem ExtendsTrace.trans {t u : State} (h : ExtendsTrace s t) (h' : ExtendsTrace t u) : ExtendsTrace s u := by
  obtain ⟨n, hn⟩ := h.trace
  obtain ⟨m, hm⟩ := h'.trace
  exact ⟨h'.past.trans h.past, n ++ m, by rw [hm, hn, List.append_assoc]⟩

theorem tick_past (s : State) : s.tick.past = s.past := by
  by_cases hu : s.fsm = .unit
  · rw [tick_unit hu]
    exact (finishUnit_sameOutside s).past
  · exact (tick_sameOutside s hu).past

theorem tick_extendsTrace (s : State) : ExtendsTrace s s.tick := by
  refine ⟨tick_past s, ?_⟩
  by_cases hu : s.fsm = .unit
  · obtain ⟨-, -, htrace⟩ := finishUnit_completes s
    exact ⟨[], by rw [tick_unit hu, htrace, List.append_nil]⟩
  · exact (tick_progressed s hu).trace

theorem run_extendsTrace (s : State) (n : Nat) : ExtendsTrace s (run n s) :=
  run_induction (Q := ExtendsTrace s) (fun u hu _ => hu.trans (tick_extendsTrace u)) n (.of_eq rfl rfl)

theorem startCommand_trace (s : State) : s.startCommand.trace = s.trace := by
  rcases startCommand_cases s with ⟨-, h⟩ | ⟨-, h⟩ | ⟨-, h⟩ <;> rw [h]
  · unfold startSend
    split <;> rfl
  · unfold startRecv recvHead
    split <;> rfl
  · rfl

theorem startCommand_extendsTrace (s : State) : ExtendsTrace s s.startCommand :=
  .of_eq (startCommand_sameOutside s).past (startCommand_trace s)

/-! ### IBUF -/

theorem tick_ibuf (s : State) : s.tick.ibuf = s.ibuf := by
  by_cases hu : s.fsm = .unit
  · rw [tick_unit hu]
    exact (finishUnit_sameOutside s).ibuf
  · exact (tick_sameOutside s hu).ibuf

theorem fallSilent_ibuf (s : State) (m : Nat) : (s.fallSilent m).ibuf = s.ibuf := by
  obtain ⟨_, h⟩ := fallSilent_eq s m
  rw [h]

end Sys2Proof.Machine.State

namespace Sys2Proof.Machine

open State

/-- What the first accesses of a transfer add to the trace, a reset puts behind it. -/
theorem resetAfter_past (s : State) (m : Nat) : ∃ new, (s.resetAfter m).past = s.past ++ s.trace ++ new := by
  have hpart := firstAccesses_partOf s (if s.stalled then 0 else m)
  obtain ⟨new, hnew⟩ := hpart.trace
  exact ⟨new, by rw [resetAfter, afterReset_past, hpart.past, hnew, List.append_assoc]⟩

/-- Every step but a reset only adds events to the trace. -/
theorem step_extendsTrace {s t : State} (h : step s = .next t) :
    ExtendsTrace s t ∨ ∃ m rest, s.inputs = .rst m :: rest ∧ t = { s with inputs := rest }.resetAfter m := by
  cases step_cases h with
  | reset m rest hi ht => exact Or.inr ⟨m, rest, hi, ht⟩
  | line bytes rest _ ht => exact Or.inl (ht ▸ .of_eq rfl rfl)
  | transfer rest _ _ _ ht =>
    obtain ⟨hpast, htrace⟩ := tick_extendsTrace { s with inputs := rest }
    exact Or.inl (ht ▸ ⟨hpast, htrace⟩)
  | waits rest _ _ ht => exact Or.inl (ht ▸ .of_eq rfl rfl)
  | stall m rest _ ht =>
    obtain ⟨new, hsil⟩ := fallSilent_eq { s with inputs := rest } m
    exact Or.inl (by rw [ht, hsil]; exact ⟨rfl, new, rfl⟩)
  | answer rest _ ht => exact Or.inl (ht ▸ .of_eq rfl rfl)
  | still rest _ _ ht => exact Or.inl (ht ▸ .of_eq rfl rfl)
  | take rest _ _ ht => exact Or.inl (ht ▸ .of_eq rfl rfl)
  | writeIbuf addr b rest _ _ ht => exact Or.inl (ht ▸ .of_eq rfl rfl)
  | writeObuf addr b rest _ _ ht => exact Or.inl (ht ▸ .of_eq rfl rfl)
  | accept w rest _ _ _ _ ht =>
    rw [exec_latched] at ht
    cases ht
    have hstart := startCommand_extendsTrace (latch { s with inputs := rest } w)
    obtain ⟨hpast, htrace⟩ := hstart.trans (run_extendsTrace _ _)
    exact Or.inl ⟨hpast, htrace⟩
  | started w rest _ _ _ _ ht =>
    obtain ⟨hpast, htrace⟩ := startCommand_extendsTrace (latch { s with inputs := rest } w)
    exact Or.inl (ht ▸ ⟨hpast, htrace⟩)

/-- Settles O9: a reset puts the events of the transfer it cuts behind it, and every other step only adds to the
trace. -/
theorem traceOnlyGrows : Obligations.TraceOnlyGrows := by
  intro s t h
  rcases step_extendsTrace h with ⟨hpast, new, htrace⟩ | ⟨m, rest, hi, ht⟩
  · exact ⟨⟨new, by rw [hpast, htrace, List.append_assoc]⟩, Or.inl hpast⟩
  · obtain ⟨new, hnew⟩ := resetAfter_past { s with inputs := rest } m
    have htrace : t.trace = [] := by rw [ht]; rfl
    exact ⟨⟨new, by rw [htrace, List.append_nil, ht, hnew]⟩, Or.inr ⟨m, rest, hi, htrace⟩⟩

/-- Settles O10: of all a step can do, only the host's own write reaches IBUF. -/
theorem ibufChangesOnlyByHost : Obligations.IbufChangesOnlyByHost := by
  intro s t hwf h
  cases step_cases h with
  | reset m rest _ ht => exact Or.inl (by rw [ht, resetAfter_ibuf])
  | line bytes rest _ ht => exact Or.inl (by rw [ht, hear_ibuf])
  | transfer rest _ _ _ ht => exact Or.inl (by rw [ht, tick_ibuf])
  | waits rest _ _ ht => exact Or.inl (by rw [ht])
  | stall m rest _ ht => exact Or.inl (by rw [ht, fallSilent_ibuf])
  | answer rest _ ht => exact Or.inl (by rw [ht, linkAnswers_ibuf])
  | still rest _ _ ht => exact Or.inl (by rw [ht])
  | take rest _ _ ht => exact Or.inl (by rw [ht, takeResult_ibuf])
  | writeIbuf addr b rest hf hi ht =>
    rw [ht]
    exact Or.inr ⟨addr, b, rest, hi, hf, Memory.read_write_same addr.toNat b hwf, fun _ => Memory.read_write_other b⟩
  | writeObuf addr b rest _ _ ht => exact Or.inl (by rw [ht, hostWriteObuf_ibuf])
  | accept w rest _ _ _ _ ht => exact Or.inl (exec_sameOutside ht).ibuf
  | started w rest _ _ _ _ ht => exact Or.inl (by rw [ht, (startCommand_sameOutside _).ibuf, latch_ibuf])

end Sys2Proof.Machine
end

section
/-! What the block has heard on the line, over every step (20_memory.md R42), and what its two operations on the link
send and receive (R40, R41). -/

namespace Sys2Proof.Machine.State

variable {s : State}

/-! ### What was heard on the line: no transfer adds to it -/

theorem nextPacket_line (s : State) : s.nextPacket.line = [] := by
  unfold nextPacket
  split <;> rfl

theorem transmit_line (s : State) : s.transmit.line = s.line := by rw [transmit_eq]

theorem capture_line (s : State) : s.capture.line = s.line.drop s.windowRest := by rw [capture_eq]

theorem tickSending_line_eq_nil (h : s.line = []) : s.tickSending.line = [] := by
  unfold tickSending afterFirst
  split
  · exact (transmit_line s).trans h
  · split
    · exact (transmit_line s).trans h
    · exact nextPacket_line _

theorem tickAwaitingAck_line (s : State) : s.tickAwaitingAck.line = [] := by
  unfold tickAwaitingAck judgeAttempt
  split
  · rfl
  · split <;> rfl

theorem recvHead_line_eq_nil (h : s.line = []) : s.recvHead.line = [] := by
  unfold recvHead
  split
  · rfl
  · exact h

theorem recvNext_line_eq_nil (h : s.line = []) : s.recvNext.line = [] := by
  unfold recvNext
  split
  · exact recvHead_line_eq_nil h
  · exact recvHead_line_eq_nil (s := s.setK _) h

theorem recvCase_line_eq_nil (r : SyncResult) (h : s.line = []) : (s.recvCase r).line = [] := by
  cases r with
  | none => exact recvNext_line_eq_nil h
  | ack o e => rfl
  | data o =>
    show ((s.recvAppend o).afterAppend o).line = []
    unfold afterAppend
    split
    · exact recvHead_line_eq_nil (s := s.recvAppend o) h
    · rfl

theorem finishUnit_line (s : State) : s.finishUnit.line = [] := by
  unfold finishUnit finishSync syncCase
  split
  case h_9 => split <;> rfl
  all_goals rfl

theorem tick_line_eq_nil (h : s.line = []) : s.tick.line = [] := by
  obtain ⟨f, hf⟩ : ∃ f, s.fsm = f := ⟨_, rfl⟩
  cases f with
  | idle => rwa [tick_idle hf]
  | sending => rw [tick_sending hf]; exact tickSending_line_eq_nil h
  | awaitingAck => rw [tick_awaitingAck hf]; exact tickAwaitingAck_line s
  | acked => rw [tick_acked hf]; exact nextPacket_line s
  | retrying => rw [tick_retrying hf]; rfl
  | timedOut => rw [tick_timedOut hf]; rfl
  | receiving =>
    rw [tick_receiving hf]
    exact recvCase_line_eq_nil _ (by rw [scanned_line, capture_line, h, List.drop_nil])
  | replying => rw [tick_replying hf]; exact recvNext_line_eq_nil ((transmit_line s).trans h)
  | unit => rw [tick_unit hf]; exact finishUnit_line s

theorem run_line_eq_nil (n : Nat) (h : s.line = []) : (run n s).line = [] :=
  run_induction (Q := fun u => u.line = []) (fun _ hu _ => tick_line_eq_nil hu) n h

/-- A command begins with nothing heard (R42). -/
theorem startCommand_line (s : State) : s.startCommand.line = [] := by
  rcases startCommand_cases s with ⟨-, h⟩ | ⟨-, h⟩ | ⟨-, h⟩ <;> rw [h]
  · unfold startSend
    split <;> rfl
  · exact recvHead_line_eq_nil (s := s.dropLine.countPackets.clearRecv) rfl
  · rfl

theorem transmitPart_line (s : State) (m : Nat) : (s.transmitPart m).line = s.line := by
  rw [transmitPart, sendBytes_eq]

theorem capturePart_line (s : State) (m : Nat) : (s.capturePart m).line = s.line.drop m := by
  rw [capturePart, recvBytes_eq]

theorem goOn_line_eq_nil (m : Nat) (h : s.line = []) : (s.goOn m).line = [] := by
  unfold goOn
  split
  case h_2 | h_8 => rwa [transmitPart_line]
  case h_3 | h_7 => rw [capturePart_line, h, List.drop_nil]
  all_goals exact h

theorem fallSilent_line_eq_nil (m : Nat) (h : s.line = []) : (s.fallSilent m).line = [] := by
  unfold fallSilent
  split
  · exact h
  · exact goOn_line_eq_nil _ h

/-- The block listens at a capture and nowhere else (70_reset_and_hazards.md R179). -/
theorem listens_iff (f : Fsm) : f.listens = true ↔ f = .awaitingAck ∨ f = .receiving := by cases f <;> simp

theorem hear_eq (s : State) (bytes : List Byte) :
    s.hear bytes = if s.fsm = .awaitingAck ∨ s.fsm = .receiving then { s with line := s.line ++ bytes } else s := by
  unfold hear
  simp only [listens_iff]
  split <;> rfl

theorem Inv.line_eq_nil (h : s.Inv) (hl : s.fsm.listens = false) : s.line = [] := by
  obtain ⟨-, -, ⟨hline, -⟩, -⟩ := h
  exact hline hl

/-! ### The link's operations on a whole frame and a whole window -/

theorem drop_eq_map_byteAt (bs : List Byte) (lo : Nat) :
    bs.drop lo = (List.range (bs.length - lo)).map fun i => byteAt bs (lo + i) := by
  refine List.ext_getElem (by simp) fun i hi _ => ?_
  have hlt : lo + i < bs.length := by
    rw [List.length_drop] at hi
    omega
  rw [List.getElem_drop, List.getElem_map, List.getElem_range, byteAt, List.getD_eq_getElem _ _ hlt]

/-- A transmission sends what is left of TXF, in ascending index. -/
theorem transmit_eq_range (h : s.txf.length = s.frameSize) : s.transmit = { s with
    trace := s.trace ++ (List.range (s.frameSize - s.part)).map fun i => .tx (byteAt s.txf (s.part + i)) } := by
  rw [transmit_eq, drop_eq_map_byteAt, List.map_map, h]
  rfl

theorem length_nextWindow (hw : s.win.length = s.windowSize) (hp : s.part ≤ s.windowSize) :
    s.nextWindow.length = s.windowSize := by
  rw [nextWindow, List.length_append, List.length_take, nextBytes, length_linkBytes, windowRest, hw,
    Nat.min_eq_left hp, Nat.add_sub_cancel' hp]

end Sys2Proof.Machine.State

namespace Sys2Proof.Machine

open State

/-- Bytes on the line pass in every control state. -/
theorem step_line {s : State} {bytes : List Byte} {rest : List Input} (hi : s.inputs = .line bytes :: rest) :
    step s = .next ({ s with inputs := rest }.hear bytes) := by
  unfold step idleStep busyStep
  rw [hi]
  simp only [lineArrives_eq, ite_self]

/-- A step from a block that does not listen and has heard nothing leaves nothing heard. -/
theorem step_line_eq_nil {s t : State} (h : step s = .next t) (hs : s.fsm.listens = false) (hl : s.line = []) :
    t.line = [] := by
  cases step_cases h with
  | reset m rest _ ht => rw [ht]; rfl
  | line bytes rest _ ht => rw [ht, hear_line, hs]; exact hl
  | transfer rest _ _ _ ht => rw [ht]; exact tick_line_eq_nil (s := { s with inputs := rest }) hl
  | waits rest _ _ ht => rw [ht]; exact hl
  | stall m rest _ ht => rw [ht]; exact fallSilent_line_eq_nil (s := { s with inputs := rest }) m hl
  | answer rest _ ht => rw [ht]; exact hl
  | still rest _ _ ht => rw [ht]; exact hl
  | take rest _ _ ht => rw [ht]; exact hl
  | writeIbuf addr b rest _ _ ht => rw [ht]; exact hl
  | writeObuf addr b rest _ _ ht => rw [ht]; exact hl
  | accept w rest _ _ _ _ ht =>
    rw [exec_latched] at ht
    cases ht
    exact run_line_eq_nil _ (startCommand_line _)
  | started w rest _ _ _ _ ht => rw [ht]; exact startCommand_line _

/-- Settles O57: bytes on the line are heard at a capture alone, and no other action puts a byte there. -/
theorem lineIsHeardOnlyInCapture : Obligations.LineIsHeardOnlyInCapture := by
  refine ⟨fun s bytes rest hi => by rw [step_line hi, hear_eq], fun s t h hst ha hr => ?_⟩
  have hs : s.fsm.listens = false := Bool.eq_false_iff.mpr fun hl => ((listens_iff _).mp hl).elim ha hr
  exact step_line_eq_nil hst hs (h.line_eq_nil hs)

/-- Settles O32: the window a capture leaves is what it had taken and the link's next bytes. -/
theorem captureTakesNextWindow : Obligations.CaptureTakesNextWindow := by
  intro s hw hp
  refine ⟨?_, capture_eq s⟩
  rw [capture_eq]
  exact length_nextWindow hw hp

/-- Settles O33: a transmission sends TXF from the byte it has come to, a whole one from TXF[0]. -/
theorem transmitSendsTxfInOrder : Obligations.TransmitSendsTxfInOrder := by
  refine fun s h => ⟨fun h0 => ?_, transmit_eq_range h⟩
  rw [transmit_eq_range h]
  simp only [h0, Nat.sub_zero, Nat.zero_add]

end Sys2Proof.Machine
end

section
/-! Encoding (30_encoding.md R51 to R56, R62): an encoded instruction decodes to itself, a command's four bytes through
the word they stand for and a frame's through its kind byte. -/

namespace Sys2Proof

/-- The bytes of a command word decode as the word (log entry 8). -/
theorem decode_bytesOfWord (w : CmdWord) : decode (bytesOfWord w) = .ok (decodeCommand w) :=
  congrArg (fun v => Except.ok (decodeCommand v)) (wordOfBytes_bytesOfWord w)

/-- What is longer than a command word is read as a frame. -/
theorem decode_eq_decodeFrame {bytes : List Byte} (h : 5 ≤ bytes.length) : decode bytes = decodeFrame bytes := by
  unfold decode
  split
  · simp at h
  · rfl

theorem decode_frameBytes {d src k c : Byte} {pl : List Byte} (h : payloadOk pl) :
    decode (frameBytes d src k pl c) =
      if k = kindData then .ok (.frameData d src pl c)
      else if k = kindAck then .ok (.frameAck d src pl c)
      else .error .reservedKind := by
  obtain ⟨hlen, -⟩ := Laws.EncodeLength.length_frameBytes d src k c h
  rw [decode_eq_decodeFrame hlen]
  simp [frameBytes, decodeFrame, h]

/-- Settles O1: a command's fields come back from its packed word, a frame's from its bytes. -/
theorem decodeEncodeRoundTrip : Obligations.DecodeEncodeRoundTrip := by
  intro i hwf
  cases i with
  | frameData d src pl c => exact (decode_frameBytes hwf).trans (if_pos rfl)
  | frameAck d src pl c => exact (decode_frameBytes hwf).trans ((if_neg (by decide)).trans (if_pos rfl))
  | _ => exact (decode_bytesOfWord _).trans (by simp [decodeCommand])

/-- Settles O2: each word and frame is read by evaluating the decoder on it. -/
theorem writtenWordsDecode : Obligations.WrittenWordsDecode := by
  unfold Obligations.WrittenWordsDecode
  decide

end Sys2Proof

namespace Sys2Proof.Machine

open State

/-- Settles O34: a frame row is its bytes heard at a capture, and lost elsewhere. -/
theorem frameRowsFeedTheLink : Obligations.FrameRowsFeedTheLink := fun s d src c pl =>
  ⟨congrArg Host.Outcome.next (hear_eq s (frameBytes d src kindData pl c)),
    congrArg Host.Outcome.next (hear_eq s (frameBytes d src kindAck pl c))⟩

end Sys2Proof.Machine
end

section
/-! A command at the port and the host's other actions (30_encoding.md R50, 20_memory.md R46, R47): what each does in a
step, accepted or waiting, and the commands of the reserved opcodes (R54). -/

namespace Sys2Proof.Machine.State

variable {s : State}

theorem cmdReady_iff : s.cmdReady = true ↔ s.fsm = .idle ∧ s.resValid = false := by simp [cmdReady]

/-! ### What a transfer leaves to the host -/

theorem transfer_inputs (s : State) : s.transfer.inputs = s.inputs := by
  rw [transfer_ignores s s.inputs]

theorem transfer_ibuf (s : State) : s.transfer.ibuf = s.ibuf :=
  transfer_induction s (Q := fun t => t.ibuf = s.ibuf) rfl (tick_ibuf s)

theorem transfer_cfg (hu : s.fsm ≠ .unit) : s.transfer.cfg = s.cfg :=
  transfer_induction s (Q := fun t => t.cfg = s.cfg) rfl (tick_sameOutside s hu).cfg

theorem transfer_idle (hf : s.fsm = .idle) : s.transfer = s := by
  rw [transfer, tick_idle hf, ite_self]

/-! ### The reserved opcodes and ILL -/

/-- The reserved opcodes (R54). -/
abbrev reservedOps : List Nat := [0x0, 0xD, 0xE, 0xF]

theorem finishUnit_reserved (h : s.cmd.op.toNat ∈ reservedOps) : s.finishUnit = s.complete { ill := true } := by
  simp only [reservedOps, List.mem_cons, List.not_mem_nil, or_false] at h
  unfold finishUnit
  rcases h with h | h | h | h <;> rw [h] <;> rfl

theorem finishUnit_ill (s : State) : s.finishUnit.res.ill = false ∨ s.cmd.op.toNat ∈ reservedOps := by
  have hlt : s.cmd.op.toNat < 16 := s.cmd.op.isLt
  unfold finishUnit
  split
  case h_9 =>
    unfold finishSync syncCase
    split <;> exact Or.inl rfl
  case h_13 =>
    refine Or.inr ?_
    simp only [reservedOps, List.mem_cons, List.not_mem_nil, or_false, imp_false] at *
    omega
  all_goals exact Or.inl rfl

theorem Progressed.ill {t : State} (h : Progressed s t) (hs : s.res.ill = false) : t.res.ill = false := by
  rcases h.res with hres | ⟨-, -, hill⟩
  · rw [hres, hs]
  · exact hill

theorem tick_ill (hs : s.res.ill = false) :
    s.tick.res.ill = false ∨ (s.fsm = .unit ∧ s.cmd.op.toNat ∈ reservedOps) := by
  by_cases hu : s.fsm = .unit
  · rw [tick_unit hu]
    exact (finishUnit_ill s).imp_right fun h => ⟨hu, h⟩
  · exact Or.inl ((tick_progressed s hu).ill hs)

theorem startSend_progressed (s : State) : Progressed s s.startSend := by
  unfold startSend
  split
  · exact (Progressed.complete (s := s.countPackets) { val := BitVec.ofNat 16 s.opSize } rfl).after rfl rfl
  · exact .of_eq rfl rfl

theorem startRecv_progressed (s : State) : Progressed s s.startRecv :=
  (recvHead_progressed s.dropLine.countPackets.clearRecv).after rfl rfl

theorem startCommand_ill (hs : s.res.ill = false) : s.startCommand.res.ill = false := by
  rcases startCommand_cases s with ⟨-, h⟩ | ⟨-, h⟩ | ⟨-, h⟩ <;> rw [h]
  · exact (startSend_progressed s).ill hs
  · exact (startRecv_progressed s).ill hs
  · exact hs

end Sys2Proof.Machine.State

namespace Sys2Proof.Machine

open State

variable {s : State} {w : CmdWord} {rest : List Input}

theorem startCommand_runCommand_ill (hs : s.res.ill = false) :
    s.startCommand.runCommand.res.ill = false ∨ s.cmd.op.toNat ∈ reservedOps := by
  rcases startCommand_cases s with ⟨-, h⟩ | ⟨-, h⟩ | ⟨-, h⟩ <;> rw [h]
  · exact Or.inl ((run_progressed _ (startSend_ne_unit s) _).ill ((startSend_progressed s).ill hs))
  · exact Or.inl ((run_progressed _ (startRecv_ne_unit s) _).ill ((startRecv_progressed s).ill hs))
  · rw [runCommand_unit rfl]
    exact finishUnit_ill (s.setFsm .unit)

/-! ### A command word at the port -/

/-- A ready block latches the word, and its command runs on. -/
theorem step_accept (hr : s.cmdReady = true) (hi : s.inputs = .command w :: rest)
    (hq : ({ s with inputs := rest }.latch w).quiet = true) :
    step s = .next ({ s with inputs := rest }.latch w).startCommand.runCommand := by
  unfold step idleStep acceptCommand
  rw [if_pos (cmdReady_iff.mp hr).1, hi]
  dsimp only
  rw [if_pos hr, if_pos hq, exec_latched]

/-- Where the next action can land in it, the command only begins. -/
theorem step_begin (hr : s.cmdReady = true) (hi : s.inputs = .command w :: rest)
    (hq : ({ s with inputs := rest }.latch w).quiet = false) :
    step s = .next ({ s with inputs := rest }.latch w).startCommand := by
  unfold step idleStep acceptCommand
  rw [if_pos (cmdReady_iff.mp hr).1, hi]
  dsimp only
  rw [if_pos hr, if_neg (Bool.eq_false_iff.mp hq)]

/-- A word waits at the port of a block that is not ready. -/
theorem step_notReady (hr : s.cmdReady = false) (hi : s.inputs = .command w :: rest) : step s = .next s.transfer := by
  by_cases hf : s.fsm = .idle
  · rw [transfer_idle hf]
    unfold step idleStep acceptCommand
    rw [if_pos hf, hi]
    dsimp only
    rw [if_neg (by simp [hr])]
  · exact step_transfer hf (by simp [quiet, hi])

theorem step_nil (hi : s.inputs = []) : step s = .next s.transfer := by
  by_cases hf : s.fsm = .idle
  · rw [transfer_idle hf]
    unfold step idleStep
    rw [if_pos hf, hi]
  · exact step_transfer hf (by simp [quiet, hi])

/-- The spacing action only spaces the others. -/
theorem step_wait (hi : s.inputs = .wait :: rest) : step s = .next { s with inputs := rest }.transfer := by
  unfold step idleStep busyStep
  rw [hi]
  dsimp only
  split
  · rename_i hf
    rw [transfer_idle (s := { s with inputs := rest }) hf]
  · rfl

/-- Settles O5: the step of a block that holds the word is a transfer, which does not look at the coming actions. -/
theorem commandWaitsUntilReady : Obligations.CommandWaitsUntilReady := by
  intro s w rest hi hr
  have hnil : step { s with inputs := [] } = .next { s.transfer with inputs := [] } := by
    rw [step_nil rfl, transfer_ignores]
  exact ⟨s.transfer, step_notReady hr hi, transfer_inputs s, transfer_ibuf s, hnil, transfer_cfg, transfer_idle⟩

/-- Settles O4: the word's bytes give the word back, and running an accepted command on is executing it. -/
theorem stepRunsDecodedInstruction : Obligations.StepRunsDecodedInstruction := by
  refine ⟨fun s w rest hf hv hi => ?_, fun s bytes rest i hi hd => ?_⟩
  · have hr : s.cmdReady = true := cmdReady_iff.mpr ⟨hf, hv⟩
    have hexec := exec_latched w { s with inputs := rest }
    exact ⟨decode_bytesOfWord w, fun hq => (step_accept hr hi hq).trans hexec.symm, step_begin hr hi, hexec⟩
  · have hexec : lineArrives bytes { s with inputs := rest } = exec i { s with inputs := rest } := by
      rw [lineArrives, hd]
    rw [step_line hi, ← lineArrives_eq, hexec]

theorem step_takeResult (hf : s.fsm = .idle) (hi : s.inputs = .takeResult :: rest) :
    step s = .next { s with inputs := rest }.takeResult := by
  unfold step idleStep
  rw [if_pos hf, hi]

theorem step_writeIbuf {addr : Addr9} {b : Byte} (hf : s.fsm = .idle) (hi : s.inputs = .writeIbuf addr b :: rest) :
    step s = .next ({ s with inputs := rest }.hostWriteIbuf addr b) := by
  unfold step idleStep
  rw [if_pos hf, hi]

theorem step_writeObuf {addr : Addr9} {b : Byte} (hf : s.fsm = .idle) (hi : s.inputs = .writeObuf addr b :: rest) :
    step s = .next ({ s with inputs := rest }.hostWriteObuf addr b) := by
  unfold step idleStep
  rw [if_pos hf, hi]

/-- Settles O13: an idle block takes each action at once, and a running command's transfer takes none. -/
theorem hostActsBetweenCommands : Obligations.HostActsBetweenCommands := by
  refine ⟨fun s rest hf hi => step_takeResult hf hi, fun s addr b rest hf hwf hi => ?_,
    fun s addr b rest hf hwf hi => ?_, fun s hf hq => ?_, fun s rest hi => ?_⟩
  · exact ⟨_, step_writeIbuf hf hi, rfl, Memory.read_write_same addr.toNat b hwf, fun _ => Memory.read_write_other b⟩
  · exact ⟨_, step_writeObuf hf hi, rfl, Memory.read_write_same addr.toNat b hwf, fun _ => Memory.read_write_other b⟩
  · exact ⟨s.transfer, step_transfer hf hq, transfer_inputs s, transfer_ibuf s⟩
  · refine ⟨_, step_nil rfl, ?_⟩
    rw [step_wait hi, transfer_ignores s rest, transfer_ignores s []]

/-- A reserved opcode that begins and runs on has completed with ILL. -/
theorem startCommand_runCommand_reserved (h : s.cmd.op.toNat ∈ reservedOps) :
    s.startCommand.runCommand = s.complete { ill := true } := by
  rcases startCommand_cases s with ⟨hop, -⟩ | ⟨hop | hop, -⟩ | ⟨-, hstart⟩
  · simp [hop] at h
  · simp [hop] at h
  · simp [hop] at h
  · rw [hstart, runCommand_unit rfl]
    exact finishUnit_reserved (s := s.setFsm .unit) h

/-- ILL rises only where a command of a reserved opcode completes: one accepted, or one in Unit. -/
theorem step_ill_cases {t : State} (h : step s = .next t) (hs : s.res.ill = false) (ht : t.res.ill = true) :
    (∃ w rest, s.inputs = .command w :: rest ∧ s.cmdReady = true ∧ (fieldOp w).toNat ∈ reservedOps) ∨
    (s.fsm = .unit ∧ s.cmd.op.toNat ∈ reservedOps) := by
  have hkept : t.res ≠ s.res := fun h => by simp [h, hs] at ht
  cases step_cases h with
  | reset m rest _ htr =>
    rw [htr] at ht
    cases ht
  | line bytes rest _ htr => exact absurd (by rw [htr, hear_res]) hkept
  | transfer rest _ _ _ htr =>
    rw [htr] at ht
    exact Or.inr ((tick_ill (s := { s with inputs := rest }) hs).resolve_left (by simp [ht]))
  | waits rest _ _ htr => exact absurd (by rw [htr]) hkept
  | stall m rest _ htr =>
    obtain ⟨_, hsil⟩ := fallSilent_eq { s with inputs := rest } m
    exact absurd (by rw [htr, hsil]) hkept
  | answer rest _ htr => exact absurd (by rw [htr, linkAnswers_res]) hkept
  | still rest _ _ htr => exact absurd (by rw [htr]) hkept
  | take rest _ _ htr => exact absurd (by rw [htr, takeResult_res]) hkept
  | writeIbuf addr b rest _ _ htr => exact absurd (by rw [htr, hostWriteIbuf_res]) hkept
  | writeObuf addr b rest _ _ htr => exact absurd (by rw [htr, hostWriteObuf_res]) hkept
  | accept w rest hf hv hi _ htr =>
    rw [exec_latched] at htr
    cases htr
    exact Or.inl ⟨w, rest, hi, cmdReady_iff.mpr ⟨hf, hv⟩,
      (startCommand_runCommand_ill (s := { s with inputs := rest }.latch w) hs).resolve_left (by simp [ht])⟩
  | started w rest _ _ _ _ htr =>
    have hill := startCommand_ill (s := { s with inputs := rest }.latch w) hs
    rw [htr, hill] at ht
    cases ht

/-- Settles O31: such a command is its one transfer in Unit, and no other completion has ILL. -/
theorem reservedOpcodesOnlySetIll : Obligations.ReservedOpcodesOnlySetIll := by
  refine ⟨fun s => ⟨rfl, rfl, rfl, rfl⟩, fun s w rest hi hq hr hop => ?_, fun s hf hq hop => ?_,
    fun s t => step_ill_cases⟩
  · exact (step_accept hr hi hq).trans
      (congrArg Host.Outcome.next (startCommand_runCommand_reserved (s := { s with inputs := rest }.latch w) hop))
  · rw [step_tick (by simp [hf]) hq (by simp [stalled, hf]), tick_unit hf, finishUnit_reserved hop]
    rfl

end Sys2Proof.Machine
end

section
/-! Fields a command's row does not list (30_encoding.md R52, R53): every transfer, and so every step, commutes with
latching other values there. -/

namespace Sys2Proof.Machine

/-- `c` has the opcode of `d` and its values of the fields the row of that opcode lists (R52). -/
structure Latches.SameOperands (c d : Latches) : Prop where
  op : c.op = d.op
  a : d.op.toNat ∈ [0x1, 0x2, 0x3, 0x4, 0x6, 0x7, 0x9, 0xA] → c.a = d.a
  b : d.op.toNat ∈ [0x6, 0x7] → c.b = d.b
  n : d.op.toNat ∈ [0x5, 0x7, 0xA, 0xB] → c.n = d.n
  blk : d.op.toNat ∈ [0xA, 0xB] → c.blk = d.blk
  ako : d.op.toNat ∈ [0x9, 0xB] → c.ako = d.ako

/-- The opcode is RECV's or RECVACK's. -/
abbrev Latches.RecvOp (d : Latches) : Prop := d.op = 0xB ∨ d.op = 0xC

/-- The opcode is SEND's, RECV's or RECVACK's. -/
abbrev Latches.LinkOp (d : Latches) : Prop := d.op = 0xA ∨ d.RecvOp

namespace State

variable {s : State} {c : Latches}

/-! ### The operands a transfer reads -/

theorem opSize_latches (h : c.SameOperands s.cmd) (ho : s.cmd.LinkOp) : opSize { s with cmd := c } = s.opSize := by
  rcases ho with ho | ho | ho
  · simp [opSize, isRecvack, h.op, ho, h.n]
  · simp [opSize, isRecvack, h.op, ho, h.n]
  · simp [opSize, isRecvack, h.op, ho]

theorem opBlk_latches (h : c.SameOperands s.cmd) (ho : s.cmd.LinkOp) : opBlk { s with cmd := c } = s.opBlk := by
  rcases ho with ho | ho | ho
  · simp [opBlk, isRecvack, h.op, ho, h.blk]
  · simp [opBlk, isRecvack, h.op, ho, h.blk]
  · simp [opBlk, isRecvack, h.op, ho]

theorem opAko_latches (h : c.SameOperands s.cmd) (ho : s.cmd.RecvOp) : opAko { s with cmd := c } = s.opAko := by
  rcases ho with ho | ho
  · simp [opAko, isRecvack, h.op, ho, h.ako]
  · simp [opAko, isRecvack, h.op, ho]

/-! ### SEND -/

theorem transmit_latches (s : State) (c : Latches) : transmit { s with cmd := c } = { s.transmit with cmd := c } := by
  simp only [transmit_eq]

theorem capture_latches (s : State) (c : Latches) : capture { s with cmd := c } = { s.capture with cmd := c } := by
  simp only [capture_eq]
  rfl

theorem completeSize_latches (h : c.SameOperands s.cmd) (ho : s.cmd.LinkOp) :
    completeSize { s with cmd := c } = { s.completeSize with cmd := c } := by
  rw [completeSize, opSize_latches h ho]
  rfl

theorem buildPacket_latches (h : c.SameOperands s.cmd) (ho : s.cmd.op = 0xA) :
    buildPacket { s with cmd := c } = { s.buildPacket with cmd := c } := by
  rw [buildPacket, opSize_latches h (Or.inl ho)]
  dsimp only
  rw [h.a (by simp [ho])]
  rfl

theorem startSend_latches (h : c.SameOperands s.cmd) (ho : s.cmd.op = 0xA) :
    startSend { s with cmd := c } = { s.startSend with cmd := c } := by
  have hp : countPackets { s with cmd := c } = { s.countPackets with cmd := c } := by
    rw [countPackets, opSize_latches h (Or.inl ho)]
    rfl
  unfold startSend
  rw [opSize_latches h (Or.inl ho), hp]
  split
  · exact completeSize_latches (s := s.countPackets) h (Or.inl ho)
  · exact buildPacket_latches (s := s.countPackets.setK 0) h ho

theorem nextPacket_latches (h : c.SameOperands s.cmd) (ho : s.cmd.op = 0xA) :
    nextPacket { s with cmd := c } = { s.nextPacket with cmd := c } := by
  unfold nextPacket
  dsimp only
  split
  · exact buildPacket_latches (s := s.setK (s.work.k + 1)) h ho
  · exact completeSize_latches h (Or.inl ho)

theorem afterFirst_latches (h : c.SameOperands s.cmd) (ho : s.cmd.op = 0xA) :
    afterFirst { s with cmd := c } = { s.afterFirst with cmd := c } := by
  unfold afterFirst
  rw [opBlk_latches h (Or.inl ho)]
  split
  · rfl
  · exact nextPacket_latches h ho

theorem tickSending_latches (h : c.SameOperands s.cmd) (ho : s.cmd.op = 0xA) :
    tickSending { s with cmd := c } = { s.tickSending with cmd := c } := by
  have hc := (transmit_sameOutside s).cmd
  unfold tickSending
  rw [transmit_latches]
  dsimp only
  split
  · rfl
  · exact afterFirst_latches (s := s.transmit.linkDelay s.par.settleUnits) (hc ▸ h) (hc ▸ ho)

theorem judgeAttempt_latches (s : State) (c : Latches) (r : SyncResult) :
    judgeAttempt { s with cmd := c } r = { s.judgeAttempt r with cmd := c } := by
  have hm : ackMatches { s with cmd := c } r = s.ackMatches r := by cases r <;> rfl
  unfold judgeAttempt
  rw [hm]
  dsimp only
  split
  · rfl
  · split <;> rfl

theorem tickAwaitingAck_latches (s : State) (c : Latches) :
    tickAwaitingAck { s with cmd := c } = { s.tickAwaitingAck with cmd := c } := by
  unfold tickAwaitingAck
  rw [capture_latches]
  exact judgeAttempt_latches (s.capture.scanned s.cfg.myaddr true) c _

/-! ### RECV and RECVACK -/

theorem recvHead_latches (h : c.SameOperands s.cmd) (ho : s.cmd.RecvOp) :
    recvHead { s with cmd := c } = { s.recvHead with cmd := c } := by
  have hd : recvDone { s with cmd := c } = s.recvDone := by
    unfold recvDone
    rw [opBlk_latches h (Or.inr ho), opSize_latches h (Or.inr ho)]
  unfold recvHead
  rw [hd]
  split <;> rfl

theorem startRecv_latches (h : c.SameOperands s.cmd) (ho : s.cmd.RecvOp) :
    startRecv { s with cmd := c } = { s.startRecv with cmd := c } := by
  have hp : countPackets { s.dropLine with cmd := c } = { s.dropLine.countPackets with cmd := c } := by
    rw [countPackets, opSize_latches (s := s.dropLine) h (Or.inr ho)]
    rfl
  show recvHead (clearRecv (countPackets { s.dropLine with cmd := c })) = _
  rw [hp]
  exact recvHead_latches (s := s.dropLine.countPackets.clearRecv) h ho

theorem recvNext_latches (h : c.SameOperands s.cmd) (ho : s.cmd.RecvOp) :
    recvNext { s with cmd := c } = { s.recvNext with cmd := c } := by
  unfold recvNext
  rw [opBlk_latches h (Or.inr ho)]
  split
  · exact recvHead_latches h ho
  · exact recvHead_latches (s := s.setK (s.work.k + 1)) h ho

theorem recvCase_latches (r : SyncResult) (h : c.SameOperands s.cmd) (ho : s.cmd.RecvOp) :
    recvCase { s with cmd := c } r = { s.recvCase r with cmd := c } := by
  cases r with
  | none => exact recvNext_latches h ho
  | ack o e => rfl
  | data o =>
    show afterAppend { s.recvAppend o with cmd := c } o = { (s.recvAppend o).afterAppend o with cmd := c }
    unfold afterAppend
    rw [opBlk_latches (s := s.recvAppend o) h (Or.inr ho)]
    split
    · exact recvHead_latches (s := s.recvAppend o) h ho
    · rfl

theorem tickReceiving_latches (h : c.SameOperands s.cmd) (ho : s.cmd.RecvOp) :
    tickReceiving { s with cmd := c } = { s.tickReceiving with cmd := c } := by
  have hc := (capture_sameOutside s).cmd
  unfold tickReceiving
  rw [capture_latches, opAko_latches h ho]
  exact recvCase_latches (s := s.capture.scanned s.cfg.myaddr s.opAko) _ (hc ▸ h) (hc ▸ ho)

theorem tickReplying_latches (h : c.SameOperands s.cmd) (ho : s.cmd.RecvOp) :
    tickReplying { s with cmd := c } = { s.tickReplying with cmd := c } := by
  have hc := (transmit_sameOutside s).cmd
  unfold tickReplying
  rw [transmit_latches]
  exact recvNext_latches (hc ▸ h) (hc ▸ ho)

/-! ### The one-step commands -/

theorem encdFrame_latches (h : c.SameOperands s.cmd) (ho : s.cmd.op.toNat = 0x6) :
    encdFrame { s with cmd := c } = s.encdFrame := by
  simp only [encdFrame, h.a (by simp [ho]), h.b (by simp [ho])]
  rfl

theorem encaFrame_latches (h : c.SameOperands s.cmd) (ho : s.cmd.op.toNat = 0x7) :
    encaFrame { s with cmd := c } = s.encaFrame := by
  simp only [encaFrame, h.a (by simp [ho]), h.b (by simp [ho]), h.n (by simp [ho])]
  rfl

theorem crcOperand_latches (h : c.SameOperands s.cmd) (ho : s.cmd.op.toNat = 0x5) :
    crcOperand { s with cmd := c } = s.crcOperand := by
  simp only [crcOperand, h.n (by simp [ho])]
  rfl

theorem finishSync_latches (h : c.SameOperands s.cmd) (ho : s.cmd.op.toNat = 0x9) :
    finishSync { s with cmd := c } = { s.finishSync with cmd := c } := by
  unfold finishSync
  dsimp only
  rw [h.a (by simp [ho]), h.ako (by simp [ho])]
  show syncCase { s.loadWin.scanned s.cmd.a s.cmd.ako with cmd := c } (s.loadWin.scanResult s.cmd.a s.cmd.ako) = _
  generalize s.loadWin.scanResult s.cmd.a s.cmd.ako = r
  cases r <;> rfl

theorem finishUnit_latches (h : c.SameOperands s.cmd) :
    finishUnit { s with cmd := c } = { s.finishUnit with cmd := c } := by
  unfold finishUnit
  dsimp only
  rw [h.op]
  split
  case h_1 ho => rw [finishSetaddr]; dsimp only; rw [h.a (by simp [ho])]; rfl
  case h_2 ho => rw [finishSettmo]; dsimp only; rw [h.a (by simp [ho])]; rfl
  case h_3 ho => rw [finishSetpin]; dsimp only; rw [h.a (by simp [ho])]; rfl
  case h_4 ho => rw [finishSetport]; dsimp only; rw [h.a (by simp [ho])]; rfl
  case h_5 ho => rw [finishCrc, crcOperand_latches h ho]; rfl
  case h_6 ho => rw [finishEncd, encdFrame_latches h ho]; rfl
  case h_7 ho => rw [finishEnca, encaFrame_latches h ho]; rfl
  case h_9 ho => exact finishSync_latches h ho
  all_goals rfl

theorem unitStores_latches (h : c.SameOperands s.cmd) : unitStores { s with cmd := c } = s.unitStores := by
  unfold unitStores
  dsimp only
  rw [h.op]
  split
  case h_1 ho => exact encdFrame_latches h ho
  case h_2 ho => exact encaFrame_latches h ho
  case h_4 ho => rw [h.a (by simp [ho]), h.ako (by simp [ho])]; rfl
  all_goals rfl

/-! ### A transfer, a command's beginning and a run -/

/-- The control state is one of the latched command's (43_send.md R110, 44_recv.md R120). -/
structure OpFits (s : State) : Prop where
  send : s.fsm.sendSide → s.cmd.op = 0xA
  recv : s.fsm.recvSide → s.cmd.RecvOp

theorem OpFits.of_send (hf : s.fsm.sendSide ∨ s.fsm = .idle) (ho : s.cmd.op = 0xA) : s.OpFits :=
  ⟨fun _ => ho, fun hr => by rcases hr with hr | hr <;> simp [hr, Fsm.sendSide] at hf⟩

theorem OpFits.of_recv (hf : s.fsm.recvSide ∨ s.fsm = .idle) (ho : s.cmd.RecvOp) : s.OpFits :=
  ⟨fun hs => by rcases hs with hs | hs | hs | hs | hs <;> simp [hs, Fsm.recvSide] at hf, fun _ => ho⟩

theorem OpFits.of_other (hf : s.fsm = .idle ∨ s.fsm = .unit) : s.OpFits := by
  constructor <;> intro h <;> rcases hf with hf | hf <;> simp [hf, Fsm.sendSide, Fsm.recvSide] at h

theorem Inv.opFits (h : s.Inv) : s.OpFits := by
  obtain ⟨-, -, -, -, hsend, hrecv⟩ := h
  exact ⟨fun hf => (hsend hf).1, fun hf => (hrecv hf).1⟩

theorem nextPacket_sendSide (s : State) : s.nextPacket.fsm.sendSide ∨ s.nextPacket.fsm = .idle :=
  (nextPacket_fsm s).imp_left Or.inl

/-- A transfer of SEND stays in the control states of SEND, or completes it. -/
theorem tick_sendSide (h : s.fsm.sendSide) : s.tick.fsm.sendSide ∨ s.tick.fsm = .idle := by
  rcases h with h | h | h | h | h
  · rw [tick_sending h]
    unfold tickSending afterFirst
    split
    · exact Or.inl (by simp [Fsm.sendSide])
    · split
      · exact Or.inl (by simp [Fsm.sendSide])
      · exact nextPacket_sendSide _
  · rw [tick_awaitingAck h]
    unfold tickAwaitingAck judgeAttempt
    split
    · exact Or.inl (by simp [Fsm.sendSide])
    · split <;> exact Or.inl (by simp [Fsm.sendSide])
  · rw [tick_acked h]
    exact nextPacket_sendSide s
  · rw [tick_retrying h]
    exact Or.inl (Or.inl rfl)
  · rw [tick_timedOut h]
    exact Or.inr rfl

/-- A transfer of RECV stays in the control states of RECV, or completes it. -/
theorem tick_recvSide (h : s.fsm.recvSide) : s.tick.fsm.recvSide ∨ s.tick.fsm = .idle := by
  rcases h with h | h
  · rw [tick_receiving h]
    exact or_assoc.mpr (recvCase_fsm _ _)
  · rw [tick_replying h]
    exact (recvNext_fsm _).imp_left Or.inl

theorem tick_cmd (s : State) : s.tick.cmd = s.cmd := by
  by_cases hu : s.fsm = .unit
  · rw [tick_unit hu]
    exact (finishUnit_sameOutside s).cmd
  · exact (tick_sameOutside s hu).cmd

theorem tick_opFits (h : s.OpFits) : s.tick.OpFits := by
  by_cases hu : s.fsm = .unit
  · rw [tick_unit hu]
    exact .of_other (Or.inl (finishUnit_fsm s))
  have hc := tick_cmd s
  by_cases hs : s.fsm.sendSide
  · exact .of_send (tick_sendSide hs) (hc ▸ h.send hs)
  by_cases hr : s.fsm.recvSide
  · exact .of_recv (tick_recvSide hr) (hc ▸ h.recv hr)
  have hi : s.fsm = .idle := by
    cases hf : s.fsm <;> simp [hf, Fsm.sendSide, Fsm.recvSide] at hu hs hr ⊢
  rwa [tick_idle hi]

theorem tick_latches (h : c.SameOperands s.cmd) (hf : s.OpFits) :
    tick { s with cmd := c } = { s.tick with cmd := c } := by
  obtain ⟨hsend, hrecv⟩ := hf
  obtain ⟨f, hf⟩ : ∃ f, s.fsm = f := ⟨_, rfl⟩
  cases f with
  | idle => rw [tick_idle hf, tick_idle (s := { s with cmd := c }) hf]
  | sending =>
    rw [tick_sending hf, tick_sending (s := { s with cmd := c }) hf]
    exact tickSending_latches h (hsend (by simp [hf, Fsm.sendSide]))
  | awaitingAck =>
    rw [tick_awaitingAck hf, tick_awaitingAck (s := { s with cmd := c }) hf]
    exact tickAwaitingAck_latches s c
  | acked =>
    rw [tick_acked hf, tick_acked (s := { s with cmd := c }) hf]
    exact nextPacket_latches h (hsend (by simp [hf, Fsm.sendSide]))
  | retrying => rw [tick_retrying hf, tick_retrying (s := { s with cmd := c }) hf]; rfl
  | timedOut => rw [tick_timedOut hf, tick_timedOut (s := { s with cmd := c }) hf]; rfl
  | receiving =>
    rw [tick_receiving hf, tick_receiving (s := { s with cmd := c }) hf]
    exact tickReceiving_latches h (hrecv (Or.inl hf))
  | replying =>
    rw [tick_replying hf, tick_replying (s := { s with cmd := c }) hf]
    exact tickReplying_latches h (hrecv (Or.inr hf))
  | unit =>
    rw [tick_unit hf, tick_unit (s := { s with cmd := c }) hf]
    exact finishUnit_latches h

theorem transfer_latches (h : c.SameOperands s.cmd) (hf : s.OpFits) :
    transfer { s with cmd := c } = { s.transfer with cmd := c } := by
  unfold transfer
  show (if s.stalled = true then _ else _) = _
  split
  · rfl
  · exact tick_latches h hf

theorem startCommand_latches (h : c.SameOperands s.cmd) :
    startCommand { s with cmd := c } = { s.startCommand with cmd := c } := by
  unfold startCommand
  dsimp only
  rw [h.op]
  split
  · rename_i ho; exact startSend_latches h (BitVec.eq_of_toNat_eq ho)
  · rename_i ho; exact startRecv_latches h (Or.inl (BitVec.eq_of_toNat_eq ho))
  · rename_i ho; exact startRecv_latches h (Or.inr (BitVec.eq_of_toNat_eq ho))
  · rfl

theorem startCommand_opFits (s : State) : s.startCommand.OpFits := by
  have hc := (startCommand_sameOutside s).cmd
  rcases startCommand_cases s with ⟨hop, h⟩ | ⟨hop, h⟩ | ⟨-, h⟩
  · exact .of_send (h ▸ (startSend_fsm s).imp_left Or.inl) (hc ▸ hop)
  · exact .of_recv (h ▸ (recvHead_fsm _).imp_left Or.inl) (hc ▸ hop)
  · exact .of_other (h ▸ Or.inr rfl)

theorem awaitsLink_latches (h : c.SameOperands s.cmd) (hf : s.OpFits) :
    awaitsLink { s with cmd := c } = s.awaitsLink := by
  by_cases hl : s.fsm.listens = true
  · have ho : s.cmd.LinkOp := ((listens_iff _).mp hl).imp (fun ha => hf.send (Or.inr (Or.inl ha)))
      fun hr => hf.recv (Or.inl hr)
    unfold awaitsLink
    rw [opBlk_latches h ho]
    rfl
  · unfold awaitsLink
    dsimp only
    rw [Bool.eq_false_iff.mpr hl, Bool.and_false, Bool.and_false]
    rfl

theorem run_latches (n : Nat) (h : c.SameOperands s.cmd) (hf : s.OpFits) :
    run n { s with cmd := c } = { run n s with cmd := c } := by
  induction n generalizing s with
  | zero => rfl
  | succ n ih =>
    unfold run
    rw [awaitsLink_latches h hf, tick_latches h hf]
    dsimp only
    split
    · rfl
    · exact ih (tick_cmd s ▸ h) (tick_opFits hf)

theorem startCommand_runCommand_latches (h : c.SameOperands s.cmd) :
    runCommand (startCommand { s with cmd := c }) = { s.startCommand.runCommand with cmd := c } := by
  have hc := (startCommand_sameOutside s).cmd
  rw [startCommand_latches h]
  exact run_latches _ (hc ▸ h) (startCommand_opFits s)

/-! ### The outside world's actions -/

theorem sendBytes_latches (s : State) (c : Latches) (bs : List Byte) :
    sendBytes { s with cmd := c } bs = { s.sendBytes bs with cmd := c } := by
  simp only [sendBytes_eq]

theorem captureAccesses_latches (s : State) (c : Latches) (m : Nat) :
    captureAccesses { s with cmd := c } m = { s.captureAccesses m with cmd := c } := by
  simp only [captureAccesses, recvBytes_eq]
  rfl

theorem receivingAccesses_latches (m : Nat) (h : c.SameOperands s.cmd) (ho : s.cmd.RecvOp) :
    receivingAccesses { s with cmd := c } m = { s.receivingAccesses m with cmd := c } := by
  unfold receivingAccesses
  rw [captureAccesses_latches, capture_latches, opAko_latches h ho]
  show (if m ≤ s.windowRest then _ else _) = _
  split <;> rfl

theorem firstAccesses_latches (m : Nat) (h : c.SameOperands s.cmd) (hf : s.OpFits) :
    firstAccesses { s with cmd := c } m = { s.firstAccesses m with cmd := c } := by
  unfold firstAccesses
  dsimp only
  split
  case h_2 =>
    unfold sendingAccesses
    rw [transmit_latches, sendBytes_latches]
    show (if s.frameSize - s.part < m ∧ s.prog.resend = false then _ else _) = _
    split <;> rfl
  case h_3 => exact captureAccesses_latches s c m
  case h_5 => split <;> rfl
  case h_7 hr => exact receivingAccesses_latches m h (hf.recv (Or.inl hr))
  case h_8 => exact sendBytes_latches s c _
  case h_9 => rw [unitStores_latches h]; rfl
  all_goals rfl

/-- Reset clears the latches with the other registers. -/
theorem resetAfter_latches (m : Nat) (h : c.SameOperands s.cmd) (hf : s.OpFits) :
    resetAfter { s with cmd := c } m = s.resetAfter m := by
  show afterReset (firstAccesses { s with cmd := c } (if s.stalled then 0 else m)) = _
  rw [firstAccesses_latches _ h hf]
  rfl

theorem fallSilent_latches (s : State) (c : Latches) (m : Nat) :
    fallSilent { s with cmd := c } m = { s.fallSilent m with cmd := c } := by
  have hg (k : Nat) : goOn { s with cmd := c } k = { s.goOn k with cmd := c } := by
    unfold goOn
    dsimp only
    split
    case h_2 | h_8 => simp only [transmitPart, sendBytes_eq]
    case h_3 | h_7 => simp only [capturePart, recvBytes_eq]; rfl
    all_goals rfl
  unfold fallSilent
  rw [hg]
  dsimp only
  split <;> rfl

/-- The actions that reach a running command. -/
theorem inputs_of_not_quiet (h : ¬ s.quiet = true) :
    (∃ m rest, s.inputs = .rst m :: rest) ∨ (∃ bytes rest, s.inputs = .line bytes :: rest) ∨
    (∃ m rest, s.inputs = .stall m :: rest) ∨ (∃ rest, s.inputs = .answer :: rest) ∨
    (∃ rest, s.inputs = .wait :: rest) := by
  unfold quiet at h
  split at h <;> simp_all

end State

open State

theorem step_stall {s : State} {m : Nat} {rest : List Input} (hi : s.inputs = .stall m :: rest) :
    step s = .next ({ s with inputs := rest }.fallSilent m) := by
  unfold step idleStep busyStep
  rw [hi]
  exact ite_self _

theorem step_answer {s : State} {rest : List Input} (hi : s.inputs = .answer :: rest) :
    step s = .next { s with inputs := rest }.linkAnswers := by
  unfold step idleStep busyStep
  rw [hi]
  exact ite_self _

theorem eq_latches_of {t u : State} {c : Latches} (h : u = { t with cmd := c }) : { t with cmd := u.cmd } = u := by
  rw [h]

/-- Words that agree on what the row lists are accepted to states equal but for the latches. -/
theorem step_accept_latches {s : State} {w v : CmdWord} {rest : List Input}
    (h : (s.latch v).cmd.SameOperands (s.latch w).cmd) (hr : s.cmdReady = true) :
    ∃ t u : State,
      step { s with inputs := .command w :: rest } = .next t ∧
      step { s with inputs := .command v :: rest } = .next u ∧ { t with cmd := u.cmd } = u := by
  have hv : { s with inputs := rest }.latch v = { { s with inputs := rest }.latch w with cmd := (s.latch v).cmd } := rfl
  have hstart := startCommand_latches (s := { s with inputs := rest }.latch w) h
  have hrun := startCommand_runCommand_latches (s := { s with inputs := rest }.latch w) h
  rw [← hv] at hstart hrun
  cases hq : ({ s with inputs := rest }.latch w).quiet with
  | true =>
    exact ⟨_, _, step_accept (s := { s with inputs := .command w :: rest }) hr rfl hq,
      step_accept (s := { s with inputs := .command v :: rest }) hr rfl hq, eq_latches_of hrun⟩
  | false =>
    exact ⟨_, _, step_begin (s := { s with inputs := .command w :: rest }) hr rfl hq,
      step_begin (s := { s with inputs := .command v :: rest }) hr rfl hq, eq_latches_of hstart⟩

/-- The step of a running command, its latches changed in fields the row does not list. -/
theorem step_latches {s : State} {c : Latches} (h : c.SameOperands s.cmd) (hf : s.OpFits) (hb : s.fsm ≠ .idle) :
    ∃ t u : State, step s = .next t ∧ step { s with cmd := c } = .next u ∧ { t with cmd := u.cmd } = u := by
  by_cases hq : s.quiet = true
  · exact ⟨_, _, step_transfer hb hq, step_transfer (s := { s with cmd := c }) hb hq,
      eq_latches_of (transfer_latches h hf)⟩
  rcases inputs_of_not_quiet hq with ⟨m, rest, hi⟩ | ⟨bytes, rest, hi⟩ | ⟨m, rest, hi⟩ | ⟨rest, hi⟩ | ⟨rest, hi⟩
  · have hreset := resetAfter_latches (s := { s with inputs := rest }) m h ⟨hf.send, hf.recv⟩
    exact ⟨_, _, step_reset hi, (step_reset (s := { s with cmd := c }) hi).trans (congrArg _ hreset), rfl⟩
  · exact ⟨_, _, step_line hi, step_line (s := { s with cmd := c }) hi, rfl⟩
  · exact ⟨_, _, step_stall hi, step_stall (s := { s with cmd := c }) hi,
      eq_latches_of (fallSilent_latches { s with inputs := rest } c m)⟩
  · exact ⟨_, _, step_answer hi, step_answer (s := { s with cmd := c }) hi, rfl⟩
  · exact ⟨_, _, step_wait hi, step_wait (s := { s with cmd := c }) hi,
      eq_latches_of (transfer_latches (s := { s with inputs := rest }) h ⟨hf.send, hf.recv⟩)⟩

/-- Settles O3: every transfer reads of the latched word only what its row lists. -/
theorem unlistedFieldsAreIgnored : Obligations.UnlistedFieldsAreIgnored :=
  ⟨fun _ _ _ s hop ha hb hn hblk hako hr => step_accept_latches (s := s)
      ⟨hop.symm, fun hm => (ha hm).symm, fun hm => (hb hm).symm, fun hm => (hn hm).symm, fun hm => (hblk hm).symm,
        fun hm => (hako hm).symm⟩ hr,
    fun _ _ hinv hbusy hop ha hb hn hblk hako => step_latches
      ⟨hop, fun hm => ha (hop ▸ hm), fun hm => hb (hop ▸ hm), fun hm => hn (hop ▸ hm), fun hm => hblk (hop ▸ hm),
        fun hm => hako (hop ▸ hm)⟩ hinv.opFits hbusy⟩

end Sys2Proof.Machine
end

section
/-! The checksum (40_checksum.md R72, R73): a step leaves zero exactly where the input byte is the accumulator, and by
its linearity two steps agree exactly where their arguments differ by the same byte. The bijections, the residue and the
single-bit flips follow. -/

namespace Sys2Proof.Machine

/-! ### Where a step leaves zero -/

/-- Bit 7 after a round is the feedback's, so the round is a bare shift of the input only where the two bytes agree. -/
theorem crcRound_eq_ushiftRight_iff (c x : Byte) : crcRound c x = x >>> 1 ↔ c = x := by
  unfold crcRound
  split
  case isTrue hmix =>
    constructor
    · intro h
      have hbit := congrArg (BitVec.getLsbD · 7) h
      simp [crcFeedback] at hbit
    · rintro rfl
      simp at hmix
  case isFalse hmix =>
    constructor
    · intro h
      apply BitVec.eq_of_getLsbD_eq
      intro i _
      cases i with
      | zero => simpa using hmix
      | succ i => simpa [Nat.add_comm] using congrArg (BitVec.getLsbD · i) h
    · rintro rfl
      rfl

theorem crcRounds_eq_ushiftRight_iff (n : Nat) (c x : Byte) : crcRounds n c x = x >>> n ↔ c = x := by
  induction n generalizing c x with
  | zero => rw [crcRounds, BitVec.ushiftRight_zero]
  | succ n ih =>
    rw [crcRounds, Nat.add_comm, BitVec.shiftRight_add, ih, crcRound_eq_ushiftRight_iff]

theorem crc8Step_eq_zero_iff (c x : Byte) : crc8Step c x = 0 ↔ c = x := by
  have h := crcRounds_eq_ushiftRight_iff 8 c x
  rwa [BitVec.ushiftRight_eq_zero (le_refl 8)] at h

/-- Two steps agree exactly where accumulators and input bytes differ by the same byte. -/
theorem crc8Step_eq_iff (c d x y : Byte) : crc8Step c x = crc8Step d y ↔ c ^^^ d = x ^^^ y := by
  rw [← BitVec.xor_eq_zero_iff, ← crc8Step_xor]
  exact crc8Step_eq_zero_iff _ _

/-! ### Bijections and the residue -/

theorem crc8Step_input_injective (c : Byte) : Function.Injective (crc8Step c) := by
  intro x y h
  rwa [crc8Step_eq_iff, BitVec.xor_self, eq_comm, BitVec.xor_eq_zero_iff] at h

theorem crc8Step_accumulator_injective (x : Byte) : Function.Injective fun c => crc8Step c x := by
  intro c d h
  rwa [crc8Step_eq_iff, BitVec.xor_self, BitVec.xor_eq_zero_iff] at h

/-- Settles O20: both arguments range over the bytes, where an injection is a bijection. -/
theorem crcStepIsBijective : Obligations.CrcStepIsBijective := fun c =>
  ⟨(crc8Step_input_injective c).bijective_of_finite, (crc8Step_accumulator_injective c).bijective_of_finite⟩

/-- Settles O19: the last step meets its own accumulator. -/
theorem crcResidueIsZero : Obligations.CrcResidueIsZero := fun bs => by
  rw [crc8_concat, crc8Step_eq_zero_iff]

/-! ### Single-bit flips -/

/-- Over the same bytes, different accumulators stay different (R72 (e), (i)). -/
theorem foldl_crc8Step_injective (bs : List Byte) : Function.Injective fun c => bs.foldl crc8Step c := by
  induction bs with
  | nil => exact Function.injective_id
  | cons b bs ih => exact ih.comp (crc8Step_accumulator_injective b)

/-- Changing one byte of a sequence changes its checksum. -/
theorem crc8_replace_byte_iff (pre post : List Byte) (b b' : Byte) :
    crc8 (pre ++ b :: post) = crc8 (pre ++ b' :: post) ↔ b = b' := by
  rw [crc8_append, crc8_append, List.foldl_cons, List.foldl_cons, (foldl_crc8Step_injective post).eq_iff,
    (crc8Step_input_injective _).eq_iff]

theorem flipBit_ne_self {j : Nat} (hj : j < 8) (b : Byte) : b ^^^ (1#8 <<< j) ≠ b := by
  intro h
  have hbit := congrArg (BitVec.getLsbD · j) h
  simp [hj] at hbit

/-- Settles O18: the flipped byte is another byte, and the rest of the sequence keeps the checksums apart. -/
theorem crcDetectsSingleBitFlip : Obligations.CrcDetectsSingleBitFlip := fun pre post b _ hj h =>
  flipBit_ne_self hj b ((crc8_replace_byte_iff pre post b _).mp h).symm

/-! ### The CRC command -/

/-- The 8-bit operand keeps the span inside IBUF. -/
theorem State.crcOperand_eq (s : State) :
    s.crcOperand = crc8 ((List.range s.cmd.n.toNat).map (Memory.read s.ibuf)) := by
  rw [crcOperand, ibufBytes, Memory.readBytes_eq_map (by omega)]
  simp

/-- Settles O21: the completion of CRC leaves the operand's checksum in the result and the accumulator. -/
theorem crcCommandResult : Obligations.CrcCommandResult := by
  intro s n
  have hv := State.crcOperand_eq (((s.latchOp 0x5).latchN n).setFsm .unit)
  change execCrc n s = _
  rw [execCrc, State.finishCrc, hv]
  rfl

end Sys2Proof.Machine
end

section
/-! The Frame Codec (41_codec.md R80 to R86): what a byte sequence with its checksum behind it reads as, what the codec
reads of IBUF, and what a command that stores a run of bytes at `OBUF[0 ..)` leaves in it. ENCD and ENCA end alike, so
their statements share one law of `emitFrame`. -/

namespace Sys2Proof.Machine

/-! ### Header and payload followed by their checksum -/

section
variable {body : List Byte} {n : Nat}

/-- The last byte is the checksum of the others (R83 (a)). -/
theorem byteAt_withChecksum (h : body.length = n) :
    byteAt (withChecksum body) n = crc8 ((withChecksum body).take n) := by
  rw [withChecksum, List.take_left' h]
  subst h
  simp [byteAt]

theorem slice_append_withChecksum (h : body.length = n) (pre post : List Byte) :
    slice (pre ++ withChecksum body ++ post) pre.length n = body := by
  rw [slice, withChecksum, List.append_assoc, List.append_assoc, List.drop_left, List.take_left' h]

theorem byteAt_append_withChecksum (h : body.length = n) (pre post : List Byte) :
    byteAt (pre ++ withChecksum body ++ post) (pre.length + n) = crc8 body := by
  subst h
  simp [byteAt, withChecksum]

/-- A frame passes the checksum test at its own offset of any window (R83 (d)). -/
theorem isCandidate_append_withChecksum (h : body.length = n + 3) (pre post : List Byte) :
    isCandidate n (pre ++ withChecksum body ++ post) pre.length = true := by
  rw [isCandidate, slice_append_withChecksum h, byteAt_append_withChecksum h]
  exact decide_eq_true rfl

/-- Decoding gives back the header and a payload of the length it is asked for (R83 (b), (c)). -/
theorem decodeFields_withChecksum {pl : List Byte} (h : pl.length = n) (d src k : Byte) :
    decodeFields n (withChecksum (d :: src :: k :: pl)) = { dest := d, src := src, kind := k, payload := pl } := by
  have hpl : slice (withChecksum (d :: src :: k :: pl)) 3 n = pl := List.take_left' h
  rw [decodeFields, hpl]
  rfl

end

/-- Settles O22: both encoders put a checksum behind a body of `p + 3` bytes. -/
theorem encodersProduceValidFrames : Obligations.EncodersProduceValidFrames := by
  intro p d src e pl hpl
  have hdata : (d :: src :: kindData :: pl).length = p + 3 := by simp [hpl]
  have hack : (d :: src :: kindAck :: List.replicate p e).length = p + 3 := by simp
  exact ⟨⟨by rw [length_encodeData, hpl], byteAt_withChecksum hdata⟩,
    ⟨length_encodeAck p d src e, byteAt_withChecksum hack⟩,
    decodeFields_withChecksum hpl d src kindData,
    decodeFields_withChecksum List.length_replicate d src kindAck,
    fun pre post => ⟨isCandidate_append_withChecksum hdata pre post, isCandidate_append_withChecksum hack pre post⟩⟩

/-! ### What the codec reads of a buffer memory, and what it leaves in one -/

namespace Memory

theorem byteAt_readBytes {m : Memory} {base n i : Nat} (h : base + n ≤ 512) (hi : i < n) :
    byteAt (readBytes m base n) i = read m (base + i) := by
  simp [byteAt, readBytes_eq_map h, hi]

/-- A slice of a run of reads is a run of reads. -/
theorem slice_readBytes {m : Memory} {base len lo n : Nat} (h : base + len ≤ 512) (hlo : lo + n ≤ len) :
    slice (readBytes m base len) lo n = readBytes m (base + lo) n := by
  rw [readBytes_eq_map h, readBytes_eq_map (by omega), slice]
  refine List.ext_getElem (by simp; omega) fun i _ _ => ?_
  simp [Nat.add_assoc]

/-- A run of writes at address 0 is read back inside it, and what stood outside it is read as before. -/
theorem read_writeBytes_zero {m : Memory} {bs : List Byte} (hm : wf m = true) (hb : bs.length ≤ 512) :
    (∀ x, x < bs.length → read (writeBytes m 0 bs) x = byteAt bs x) ∧
    (∀ x, bs.length ≤ x → read (writeBytes m 0 bs) x = read m x) := by
  have hend : 0 + bs.length ≤ 512 := by omega
  constructor
  · intro x hx
    have h := read_writeBytes_inside hm hend hx
    rwa [Nat.zero_add] at h
  · intro x hx
    exact read_writeBytes_outside hend (Or.inr (by omega))

end Memory

namespace State

variable (s : State)

theorem frameSize_le_512 : s.frameSize ≤ 512 := by
  have h := s.par.payloadSize_le
  rw [frameSize_eq]
  omega

/-- The payload ENCD reads lies inside IBUF. -/
theorem encdFrame_eq :
    s.encdFrame = encodeData s.cmd.a s.cmd.b ((List.range s.payloadSize).map (Memory.read s.ibuf)) := by
  have h := s.frameSize_le_512
  rw [encdFrame, ibufBytes, Memory.readBytes_eq_map (by simp at h ⊢; omega)]
  simp

/-- The fields of `IBUF[0 .. F)`, each read at its own address. -/
theorem decFields_eq : s.decFields =
    { dest := Memory.read s.ibuf 0, src := Memory.read s.ibuf 1, kind := Memory.read s.ibuf 2,
      payload := s.ibufBytes 3 s.payloadSize } := by
  have hF : 0 + s.frameSize ≤ 512 := by rw [Nat.zero_add]; exact s.frameSize_le_512
  have hhead : ∀ i < 3, byteAt (Memory.readBytes s.ibuf 0 s.frameSize) i = Memory.read s.ibuf i := by
    intro i hi
    rw [Memory.byteAt_readBytes hF (by simp; omega), Nat.zero_add]
  have hpl : slice (Memory.readBytes s.ibuf 0 s.frameSize) 3 s.payloadSize = s.ibufBytes 3 s.payloadSize :=
    Memory.slice_readBytes hF (by simp; omega)
  rw [decFields, decodeFields, ibufBytes, hhead 0 (by decide), hhead 1 (by decide), hhead 2 (by decide), hpl]

/-- The end of ENCD and ENCA: what the completion writes beside OBUF. -/
theorem emitFrame_eq (f : List Byte) : s.emitFrame f = { s with
    fsm := .idle, line := [], part := 0, resValid := true, txf := f, obuf := (s.emitFrame f).obuf
    res := { val := zext16 (byteAt f (s.frameSize - 1)) }
    work := { s.work with crc := byteAt f (s.frameSize - 1) } } := rfl

/-- The end of ENCD and ENCA: a whole frame is left in `OBUF[0 .. F)`, and nothing else of OBUF changes. -/
theorem emitFrame_obuf {f : List Byte} (hw : Memory.wf s.obuf = true) (hf : f.length = s.frameSize) :
    (∀ x, x < s.frameSize → Memory.read (s.emitFrame f).obuf x = byteAt f x) ∧
    (∀ x, s.frameSize ≤ x → Memory.read (s.emitFrame f).obuf x = Memory.read s.obuf x) := by
  have h := Memory.read_writeBytes_zero hw (hf ▸ s.frameSize_le_512)
  rwa [hf] at h

theorem finishDec_eq : s.finishDec = (s.obufStore 0 (s.ibufBytes 3 s.payloadSize)).complete
    { a := Memory.read s.ibuf 0, b := Memory.read s.ibuf 1, c := Memory.read s.ibuf 2 } := by
  rw [finishDec, decFields_eq]

/-- DEC leaves the payload in `OBUF[0 .. P)`, and nothing else of OBUF changes. -/
theorem finishDec_obuf (hw : Memory.wf s.obuf = true) :
    (∀ x, x < s.payloadSize → Memory.read s.finishDec.obuf x = Memory.read s.ibuf (3 + x)) ∧
    (∀ x, s.payloadSize ≤ x → Memory.read s.finishDec.obuf x = Memory.read s.obuf x) := by
  have hP : 3 + s.payloadSize ≤ 512 := by
    have h := s.frameSize_le_512
    simp at h ⊢
    omega
  have hlen : (s.ibufBytes 3 s.payloadSize).length = s.payloadSize := Memory.length_readBytes _ _ _
  obtain ⟨hin, hout⟩ := Memory.read_writeBytes_zero (bs := s.ibufBytes 3 s.payloadSize) hw (by omega)
  rw [hlen] at hin hout
  rw [finishDec_eq]
  exact ⟨fun x hx => (hin x hx).trans (Memory.byteAt_readBytes hP hx), hout⟩

end State

/-! ### The three commands -/

/-- Settles O23: the frame ENCD builds goes through `emitFrame`. -/
theorem encdStoresDataFrame : Obligations.EncdStoresDataFrame := by
  intro s a b hw frame last
  let begun := (((s.latchOp 0x6).latchA a).latchB b).setFsm .unit
  have hexec : exec (.encd a b) s = .next (begun.emitFrame frame) := by
    change execEncd a b s = _
    rw [execEncd, State.finishEncd, State.encdFrame_eq]
    rfl
  have hlen : frame.length = begun.frameSize := by simp [frame, begun]
  exact ⟨_, hexec, begun.emitFrame_eq frame, begun.emitFrame_obuf hw hlen⟩

/-- Settles O24: the frame ENCA builds goes through `emitFrame`. -/
theorem encaStoresAckFrame : Obligations.EncaStoresAckFrame := by
  intro s a b n hw frame last
  let begun := ((((s.latchOp 0x7).latchA a).latchB b).latchN n).setFsm .unit
  have hexec : exec (.enca a b n) s = .next (begun.emitFrame frame) := rfl
  have hlen : frame.length = begun.frameSize := length_encodeAck _ a b n
  exact ⟨_, hexec, begun.emitFrame_eq frame, begun.emitFrame_obuf hw hlen⟩

/-- Settles O25: the completion of DEC reads `IBUF[0 .. F)` and stores its payload. -/
theorem decReturnsFields : Obligations.DecReturnsFields := by
  intro s hw
  let begun := (s.latchOp 0x8).setFsm .unit
  have hexec : exec .dec s = .next begun.finishDec := rfl
  refine ⟨_, hexec, ?_, begun.finishDec_obuf hw⟩
  rw [State.finishDec_eq]
  rfl

end Sys2Proof.Machine
end

section
/-! The Frame Synchronizer and the SYNC command (42_sync.md R90 to R96): a scan answers what its lowest passing offset
answers, and SYNC's completion reports it. -/

namespace Sys2Proof.Machine

/-! ### A scan answers at its lowest passing offset -/

/-- Offset `o` passes the checksum, destination and kind tests of the mode (R92 to R94). -/
abbrev SyncPasses (p : Nat) (w : List Byte) (addr : Byte) (ako : Bool) (o : Nat) : Prop :=
  crc8 (slice w o (p + 3)) = byteAt w (o + (p + 3)) ∧ byteAt w o = addr ∧
  byteAt w (o + 2) = if ako then 0x02 else 0x01

/-- The lowest of the offsets a scan tries that passes (R91). -/
abbrev SyncLowest (p : Nat) (w : List Byte) (addr : Byte) (ako : Bool) (o : Nat) : Prop :=
  o ≤ p + 4 ∧ SyncPasses p w addr ako o ∧ ∀ q, q < o → ¬ SyncPasses p w addr ako q

/-- What a passing offset answers in each mode (R94, R95). -/
def syncAnswer (p : Nat) (w : List Byte) (ako : Bool) (o : Nat) : SyncResult :=
  if ako then .ack o (byteAt w (o + (3 + p - 1))) else .data o

section
variable {p : Nat} {w : List Byte} {addr : Byte} {ako : Bool}

theorem syncFrom_succ_of_passes {o : Nat} (n : Nat) (h : SyncPasses p w addr ako o) :
    syncFrom p w addr ako (n + 1) o = syncAnswer p w ako o := by
  have hat : syncAt p w addr ako o = syncAnswer p w ako o := (syncAt_eq ..).trans (if_pos h)
  rw [syncFrom, hat]
  cases ako <;> rfl

theorem syncFrom_succ_of_not_passes {o : Nat} (n : Nat) (h : ¬ SyncPasses p w addr ako o) :
    syncFrom p w addr ako (n + 1) o = syncFrom p w addr ako n (o + 1) := by
  have hat : syncAt p w addr ako o = .none := (syncAt_eq ..).trans (if_neg h)
  rw [syncFrom, hat]

/-- The next `n` offsets from `o`: none passes, or the lowest that does answers. -/
theorem syncFrom_cases (n o : Nat) :
    (syncFrom p w addr ako n o = .none ∧ ∀ q, o ≤ q → q < o + n → ¬ SyncPasses p w addr ako q) ∨
    ∃ q, syncFrom p w addr ako n o = syncAnswer p w ako q ∧ q < o + n ∧ SyncPasses p w addr ako q ∧
      ∀ i, o ≤ i → i < q → ¬ SyncPasses p w addr ako i := by
  induction n generalizing o with
  | zero => exact Or.inl ⟨rfl, fun q hq hlt => by omega⟩
  | succ n ih =>
    by_cases h : SyncPasses p w addr ako o
    · exact Or.inr ⟨o, syncFrom_succ_of_passes n h, by omega, h, fun i hi hio => by omega⟩
    · rw [syncFrom_succ_of_not_passes n h]
      have extend {q : Nat} (hq : o ≤ q) (hall : o + 1 ≤ q → ¬ SyncPasses p w addr ako q) :
          ¬ SyncPasses p w addr ako q := by
        rcases Nat.eq_or_lt_of_le hq with rfl | hlt
        · exact h
        · exact hall hlt
      rcases ih (o + 1) with ⟨hs, hall⟩ | ⟨q, hs, hlt, hpass, hbelow⟩
      · exact Or.inl ⟨hs, fun q hq hlt => extend hq fun h' => hall q h' (by omega)⟩
      · exact Or.inr ⟨q, hs, by omega, hpass, fun i hi hiq => extend hi fun h' => hbelow i h' hiq⟩

/-- A scan of a window (R90, R91). -/
theorem sync_cases (p : Nat) (w : List Byte) (addr : Byte) (ako : Bool) :
    (sync p w addr ako = .none ∧ ∀ o, o ≤ p + 4 → ¬ SyncPasses p w addr ako o) ∨
    ∃ o, sync p w addr ako = syncAnswer p w ako o ∧ SyncLowest p w addr ako o := by
  rcases syncFrom_cases (p + 4 + 1) 0 with ⟨hs, hall⟩ | ⟨o, hs, hlt, hpass, hbelow⟩
  · exact Or.inl ⟨hs, fun o ho => hall o (Nat.zero_le o) (by omega)⟩
  · exact Or.inr ⟨o, hs, by omega, hpass, fun q => hbelow q (Nat.zero_le q)⟩

theorem SyncLowest.unique {o q : Nat} (ho : SyncLowest p w addr ako o) (hq : SyncLowest p w addr ako q) : o = q := by
  obtain ⟨-, hpo, hlo⟩ := ho
  obtain ⟨-, hpq, hlq⟩ := hq
  exact Nat.le_antisymm (Nat.not_lt.mp fun h => hlo q h hpq) (Nat.not_lt.mp fun h => hlq o h hpo)

theorem sync_eq_none_iff : sync p w addr ako = .none ↔ ∀ o, o ≤ p + 4 → ¬ SyncPasses p w addr ako o := by
  rcases sync_cases p w addr ako with ⟨hs, hall⟩ | ⟨o, hs, hle, hpass, -⟩
  · exact iff_of_true hs hall
  · refine iff_of_false (fun h => ?_) fun hall => hall o hle hpass
    rw [hs] at h
    cases ako <;> cases h

theorem sync_eq_of_lowest {o : Nat} (h : SyncLowest p w addr ako o) : sync p w addr ako = syncAnswer p w ako o := by
  rcases sync_cases p w addr ako with ⟨-, hall⟩ | ⟨q, hs, hq⟩
  · obtain ⟨hle, hpass, -⟩ := h
    exact absurd hpass (hall o hle)
  · rw [hs, hq.unique h]

theorem sync_eq_data_iff (o : Nat) :
    sync p w addr ako = .data o ↔ ako = false ∧ SyncLowest p w addr ako o := by
  constructor
  · intro h
    rcases sync_cases p w addr ako with ⟨hs, -⟩ | ⟨q, hs, hq⟩ <;> rw [h] at hs
    · cases hs
    · cases ako <;> cases hs
      exact ⟨rfl, hq⟩
  · rintro ⟨rfl, h⟩
    exact sync_eq_of_lowest h

theorem sync_eq_ack_iff (o : Nat) (e : Byte) :
    sync p w addr ako = .ack o e ↔
      ako = true ∧ SyncLowest p w addr ako o ∧ e = byteAt w (o + (3 + p - 1)) := by
  constructor
  · intro h
    rcases sync_cases p w addr ako with ⟨hs, -⟩ | ⟨q, hs, hq⟩ <;> rw [h] at hs
    · cases hs
    · cases ako <;> cases hs
      exact ⟨rfl, hq, rfl⟩
  · rintro ⟨rfl, h, rfl⟩
    exact sync_eq_of_lowest h

end

/-- Settles O26: the scan's three answers, each by the lowest passing offset or its absence. -/
theorem syncFindsLowestOffset : Obligations.SyncFindsLowestOffset := fun _ _ _ _ =>
  ⟨sync_eq_none_iff, sync_eq_data_iff, sync_eq_ack_iff⟩

/-! ### The SYNC command -/

theorem byteAt_slice {bs : List Byte} {lo n i : Nat} (h : i < n) : byteAt (slice bs lo n) i = byteAt bs (lo + i) := by
  simp [byteAt, slice, List.getD_eq_getElem?_getD, List.getElem?_take_of_lt h]

theorem length_slice {bs : List Byte} {lo n : Nat} (h : lo + n ≤ bs.length) : (slice bs lo n).length = n := by
  rw [slice, List.length_take, List.length_drop]
  omega

namespace State

variable (s : State)

/-- The window SYNC scans lies inside IBUF. -/
theorem loadWin_eq : s.loadWin = { s with win := (List.range s.windowSize).map (Memory.read s.ibuf) } := by
  have h := s.par.payloadSize_le
  rw [loadWin, ibufBytes, Memory.readBytes_eq_map (by simp; omega)]
  simp only [Nat.zero_add]

/-- SYNC's completions write the results and OBUF, and nothing else (R96). -/
theorem syncCase_eq (r : SyncResult) : s.syncCase r = { s with
    fsm := .idle, line := [], part := 0, resValid := true, res := (s.syncCase r).res
    obuf := (s.syncCase r).obuf } := by
  cases r <;> rfl

/-- A Data match leaves the payload in `OBUF[0 .. P)`, and nothing else of OBUF changes. -/
theorem syncCase_data_obuf {o : Nat} (hw : Memory.wf s.obuf = true) (ho : o + 3 + s.payloadSize ≤ s.win.length) :
    (∀ x, x < s.payloadSize → Memory.read (s.syncCase (.data o)).obuf x = byteAt s.win (o + 3 + x)) ∧
    (∀ x, s.payloadSize ≤ x → Memory.read (s.syncCase (.data o)).obuf x = Memory.read s.obuf x) := by
  have hlen := length_slice ho
  have hP : s.payloadSize ≤ 251 := s.par.payloadSize_le
  obtain ⟨hin, hout⟩ := Memory.read_writeBytes_zero hw (bs := slice s.win (o + 3) s.payloadSize) (by omega)
  rw [hlen] at hin hout
  exact ⟨fun x hx => (hin x hx).trans (byteAt_slice hx), hout⟩

end State

/-- Settles O28: SYNC scans the window it has loaded, and each answer has its completion. -/
theorem syncCommandResult : Obligations.SyncCommandResult := by
  intro s a ako hw w
  let begun := (((s.latchOp 0x9).latchA a).latchAko ako).setFsm .unit
  let ready := ({ begun with win := w } : State).scanned a ako
  have hexec : exec (.sync a ako) s = .next (ready.syncCase (sync s.payloadSize w a ako)) := by
    change execSync a ako s = _
    rw [execSync, State.finishSync, State.loadWin_eq]
    rfl
  refine ⟨_, hexec, ?_, fun h => ?_, fun o h => ?_, fun o e h => ?_⟩
  · rw [State.syncCase_eq]
    rfl
  · rw [h]
    exact ⟨rfl, rfl⟩
  · rw [h]
    obtain ⟨-, hle, -⟩ := (sync_eq_data_iff o).mp h
    have hwin : ready.win.length = 2 * (s.payloadSize + 4) := by simp [ready, w]
    have hend : o + 3 + s.payloadSize ≤ ready.win.length := by omega
    exact ⟨rfl, ready.syncCase_data_obuf hw hend⟩
  · rw [h]
    exact ⟨rfl, rfl⟩

end Sys2Proof.Machine
end

section
/-! A Data frame on the line of a block in RECV (42_sync.md R90, R94 (d); 44_recv.md R121 to R128): the scan of a window
that begins with it, the pass that delivers it and the reply that ends a one-packet message. -/

namespace Sys2Proof.Machine

/-! ### A window that begins with a frame -/

section
variable {pl : List Byte} {p : Nat} (h : pl.length = p) (d src : Byte) (post : List Byte)
include h

theorem slice_encodeData_append : slice (encodeData d src pl ++ post) 3 p = pl := by
  subst h
  simp [slice, encodeData, withChecksum]

theorem byteAt_encodeData_append :
    byteAt (encodeData d src pl ++ post) (p + 3) = crc8 (d :: src :: kindData :: pl) := by
  have hbody : (d :: src :: kindData :: pl).length = p + 3 := by simp [h]
  have hlast := byteAt_append_withChecksum hbody [] post
  rwa [List.nil_append, List.length_nil, Nat.zero_add] at hlast

/-- A Data frame for this node at the window's start is the match (R94 (d)). -/
theorem sync_encodeData_append : sync p (encodeData d src pl ++ post) d false = .data 0 := by
  have hbody : (d :: src :: kindData :: pl).length = p + 3 := by simp [h]
  have hcrc := of_decide_eq_true (isCandidate_append_withChecksum hbody [] post)
  have hlowest : SyncLowest p (encodeData d src pl ++ post) d false 0 :=
    ⟨Nat.zero_le _, ⟨hcrc, rfl, rfl⟩, fun q hq => absurd hq (Nat.not_lt_zero q)⟩
  exact (sync_eq_data_iff 0).mpr ⟨rfl, hlowest⟩

end

theorem packetCount_eq_one {size p : Nat} (h : 1 ≤ size) (hp : size ≤ p) : packetCount size p = 1 := by
  rw [packetCount, if_neg (by omega), Nat.div_eq_of_lt (by omega)]

namespace State

variable {s : State}

/-! ### RECV's operands, and its beginning -/

theorem opSize_recv (h : s.cmd.op = 0xB) : s.opSize = s.cmd.n.toNat := by simp [opSize, isRecvack, h]

theorem opBlk_recv (h : s.cmd.op = 0xB) : s.opBlk = s.cmd.blk := by simp [opBlk, isRecvack, h]

theorem opAko_recv (h : s.cmd.op = 0xB) : s.opAko = s.cmd.ako := by simp [opAko, isRecvack, h]

/-- A message of at least one byte is awaited (R122, R123). -/
theorem startRecv_of_pos (h : s.opSize ≠ 0) : s.startRecv = s.dropLine.countPackets.clearRecv.setFsm .receiving := by
  let head := s.dropLine.countPackets.clearRecv
  have hdone : head.recvDone = false := by
    have hpos := packetCount_pos (p := s.payloadSize) h
    have hpkts : head.work.pkts.toNat = packetCount s.opSize s.payloadSize := s.pkts_toNat
    have hsize : head.opSize = s.opSize := rfl
    have hzero : head.work.bytesDone.toNat = 0 ∧ head.work.k.toNat = 0 := ⟨rfl, rfl⟩
    unfold recvDone
    split <;> exact decide_eq_false (by omega)
  rw [startRecv, recvHead, if_neg (Bool.eq_false_iff.mp hdone)]

theorem startCommand_recv (h : s.cmd.op = 0xB) : s.startCommand = s.startRecv := by
  unfold startCommand
  rw [h]
  rfl

/-! ### A pass that finds a frame, and the last reply -/

/-- A whole window begins with what was heard on the line (20_memory.md R38, R41). -/
theorem nextWindow_of_line (hp : s.part = 0) (hl : s.line.length ≤ s.windowSize) :
    s.nextBytes.length = s.windowSize ∧ s.nextWindow = s.nextBytes ∧ ∃ post, s.nextBytes = s.line ++ post := by
  have hbytes : s.nextBytes = s.linkBytes s.windowSize := by rw [nextBytes, windowRest, hp, Nat.sub_zero]
  refine ⟨by rw [hbytes, length_linkBytes], by rw [nextWindow, hp, List.take_zero, List.nil_append], ?_⟩
  rw [hbytes, linkBytes, List.take_append, List.take_of_length_le hl, List.append_assoc]
  exact ⟨_, rfl⟩

theorem recvCase_data (hb : s.opBlk = false) (o : Nat) : s.recvCase (.data o) = (s.recvAppend o).buildReply o :=
  if_neg (Bool.eq_false_iff.mp hb)

/-- A non-blocking pass with a Data match appends the payload, notes the match and builds the reply (R124, R125, R128).
-/
theorem tickReceiving_data {o : Nat} (hb : s.opBlk = false)
    (hr : sync s.payloadSize s.nextWindow s.cfg.myaddr s.opAko = .data o) :
    let c := byteAt s.nextWindow (o + s.frameSize - 1)
    let t := s.tickReceiving
    t = { s with
      fsm := .replying, part := 0, line := [], rx := t.rx, draws := t.draws, win := s.nextWindow
      trace := s.trace ++ s.nextBytes.map .rx
      obuf := Memory.writeBytes s.obuf s.work.bytesDone.toNat (slice s.nextWindow (o + 3) s.payloadSize)
      txf := encodeAck s.payloadSize (byteAt s.nextWindow (o + 1)) s.cfg.myaddr c
      work := { s.work with
        bytesDone := s.work.bytesDone + BitVec.ofNat 16 s.payloadSize, o := t.work.o, crc := t.work.crc }
      prog := { s.prog with fnd := true, la := kindData, lb := byteAt s.nextWindow (o + 1), lc := c } } := by
  intro c t
  have ht : t = ((s.capture.scanned s.cfg.myaddr s.opAko).recvAppend o).buildReply o := by
    have hscan : s.capture.scanResult s.cfg.myaddr s.opAko = .data o := by
      rw [capture_eq]
      exact hr
    have hblk : (s.capture.scanned s.cfg.myaddr s.opAko).opBlk = false := by
      rw [capture_eq]
      exact hb
    rw [← recvCase_data hblk, ← hscan]
    rfl
  rw [ht, capture_eq]
  rfl

/-- The last pass of a non-blocking RECV is over (R123, R128). -/
theorem recvNext_last (hb : s.opBlk = false) (hk : s.work.pkts.toNat ≤ (s.work.k + 1).toNat) :
    s.recvNext = (s.setK (s.work.k + 1)).complete s.recvResult := by
  have hdone : (s.setK (s.work.k + 1)).recvDone = true :=
    (if_neg (Bool.eq_false_iff.mp hb)).trans (decide_eq_true hk)
  rw [recvNext, if_neg (Bool.eq_false_iff.mp hb), recvHead, if_pos hdone]
  rfl

/-- After the last packet's reply a non-blocking RECV completes (R125). -/
theorem tickReplying_last (hb : s.opBlk = false) (hk : s.work.pkts.toNat ≤ (s.work.k + 1).toNat) :
    s.tickReplying = { s with
      fsm := .idle, part := 0, line := [], resValid := true, res := s.recvResult
      trace := s.trace ++ (s.txf.drop s.part).map .tx, work := { s.work with k := s.work.k + 1 } } := by
  rw [tickReplying, transmit_eq]
  refine recvNext_last ?_ ?_
  · exact hb
  · exact hk

/-- From the last capture of a non-blocking RECV to its end: `window` was captured and a frame from `src` with the
payload `pl` and the checksum `c` matched in it, appended, and acknowledged (R124, R125, R128). -/
structure Delivered (s t : State) (window : List Byte) (src c : Byte) (pl : List Byte) : Prop where
  fsm : t.fsm = .idle
  resValid : t.resValid = true
  res : t.res =
    { val := s.work.bytesDone + BitVec.ofNat 16 s.payloadSize, a := kindData, b := src, c := c, fnd := true }
  obuf : t.obuf = Memory.writeBytes s.obuf s.work.bytesDone.toNat pl
  trace : t.trace = s.trace ++ window.map .rx ++ (encodeAck s.payloadSize src s.cfg.myaddr c).map .tx

/-- The last pass, with a Data match anywhere in its window, and its reply. -/
theorem delivered_of_data {o : Nat} (rest : List Input) (hb : s.opBlk = false)
    (hk : s.work.pkts.toNat ≤ (s.work.k + 1).toNat)
    (hr : sync s.payloadSize s.nextWindow s.cfg.myaddr s.opAko = .data o) :
    Delivered s ({ s.tickReceiving with inputs := rest } : State).tickReplying s.nextBytes
      (byteAt s.nextWindow (o + 1)) (byteAt s.nextWindow (o + s.frameSize - 1))
      (slice s.nextWindow (o + 3) s.payloadSize) := by
  rw [tickReceiving_data hb hr, tickReplying_last]
  · exact ⟨rfl, rfl, rfl, rfl, rfl⟩
  · exact hb
  · exact hk

/-- The last pass, with a valid Data frame for this node first on the line, and its reply. -/
theorem delivered_of_frame {src : Byte} {pl : List Byte} (rest : List Input) (hb : s.opBlk = false)
    (ha : s.opAko = false) (hp : s.part = 0) (hk : s.work.pkts.toNat ≤ (s.work.k + 1).toNat)
    (hpl : pl.length = s.payloadSize) (hl : s.line = encodeData s.cfg.myaddr src pl) :
    s.tickReceiving.fsm = .replying ∧
    ∃ window : List Byte, window.length = s.windowSize ∧ window.take s.frameSize = s.line ∧
      Delivered s ({ s.tickReceiving with inputs := rest } : State).tickReplying window
        src (crc8 (s.cfg.myaddr :: src :: kindData :: pl)) pl := by
  have hlen : s.line.length = s.frameSize := by rw [hl, length_encodeData, hpl]; rfl
  have hfits : s.frameSize ≤ s.windowSize := Nat.le_mul_of_pos_left _ (by decide)
  obtain ⟨hwin, hnext, post, hpost⟩ := nextWindow_of_line hp (hlen ▸ hfits)
  have hframe : s.nextWindow = encodeData s.cfg.myaddr src pl ++ post := by rw [hnext, hpost, hl]
  have hsync : sync s.payloadSize s.nextWindow s.cfg.myaddr s.opAko = .data 0 := by
    rw [hframe, ha]
    exact sync_encodeData_append hpl _ _ _
  have hsum : byteAt s.nextWindow (0 + s.frameSize - 1) = crc8 (s.cfg.myaddr :: src :: kindData :: pl) := by
    rw [hframe, Nat.zero_add]
    exact byteAt_encodeData_append hpl _ _ _
  have hpay : slice s.nextWindow (0 + 3) s.payloadSize = pl := by
    rw [hframe]
    exact slice_encodeData_append hpl _ _ _
  have hsrc : byteAt s.nextWindow (0 + 1) = src := by
    rw [hframe]
    rfl
  have hdone := delivered_of_data rest hb hk hsync
  rw [hsrc, hsum, hpay] at hdone
  have hfsm : s.tickReceiving.fsm = .replying := by rw [tickReceiving_data hb hsync]
  exact ⟨hfsm, s.nextBytes, hwin, by rw [hpost, ← hlen, List.take_left], hdone⟩

end State

open State

/-- A running command's transfer in the spacing action, where the link answers (70_reset_and_hazards.md R188). -/
theorem step_wait_tick {s : State} {rest : List Input} (hs : s.silent = false) (hi : s.inputs = .wait :: rest) :
    step s = .next { s with inputs := rest }.tick := by
  rw [step_wait hi, transfer_eq]
  exact stalled_of_answering hs

/-- Settles O35: the frame heard begins the next window, its pass delivers it, and the reply is the last. -/
theorem frameOnLineIsDelivered : Obligations.FrameOnLineIsDelivered := by
  intro s w src pl rest hop hblk hako hn1 hnP hpl hwf hready hsilent c frame hi
  let accepted := { s with inputs := .line frame :: .wait :: .wait :: rest }.latch w
  let begun := accepted.dropLine.countPackets.clearRecv.setFsm .receiving
  let heard := { begun with inputs := .wait :: .wait :: rest, line := frame }
  let passing := { heard with inputs := .wait :: rest }
  let matched := passing.tickReceiving
  have hsize : accepted.opSize = (fieldN w).toNat := opSize_recv hop
  have hbegin : step s = .next begun := by
    have hstart : accepted.startCommand = begun := (startCommand_recv hop).trans (startRecv_of_pos (by omega))
    rw [step_begin hready hi rfl]
    exact congrArg _ hstart
  have hhear : step begun = .next heard := step_line (s := begun) rfl
  have hpass : step heard = .next matched := step_wait_tick hsilent rfl
  have hlast : passing.work.pkts.toNat ≤ (passing.work.k + 1).toNat := by
    have hpkts : passing.work.pkts.toNat = packetCount accepted.opSize s.payloadSize := accepted.pkts_toNat
    rw [hpkts, packetCount_eq_one (by omega) (by omega)]
    exact Nat.le_refl 1
  obtain ⟨hreplying, window, hwin, hframe, hdone⟩ :=
    delivered_of_frame rest ((opBlk_recv hop).trans hblk) ((opAko_recv hop).trans hako) rfl hlast hpl rfl
  have hreply : step matched = .next { matched with inputs := rest }.tickReplying := by
    have hout : SameOutside passing matched := tickReceiving_sameOutside passing
    rw [step_wait_tick (hout.silent.trans hsilent) hout.inputs, tick_replying]
    exact hreplying
  have hinputs : ({ matched with inputs := rest } : State).tickReplying.inputs = rest :=
    ((transmit_sameOutside _).trans (recvNext_sameOutside _)).inputs
  have hval : passing.work.bytesDone + BitVec.ofNat 16 passing.payloadSize = BitVec.ofNat 16 s.payloadSize :=
    BitVec.zero_add _
  have hfits : pl.length ≤ 512 := by
    have hP : s.payloadSize ≤ 251 := s.par.payloadSize_le
    omega
  obtain ⟨hin, hkept⟩ := Memory.read_writeBytes_zero hwf hfits
  rw [hpl] at hin hkept
  refine ⟨begun, heard, matched, _, hbegin, rfl, hhear, hpass, hreplying, hreply, hdone.fsm, hdone.resValid, hinputs,
    ?_, fun x hx => ?_, fun x hx => ?_, window, hwin, hframe, hdone.trace⟩
  · rw [hdone.res, hval]
    rfl
  · rw [hdone.obuf]
    exact hin x hx
  · rw [hdone.obuf]
    exact hkept x hx

end Sys2Proof.Machine
end

section
/-! The Transmission Controller (43_send.md): the packets of a message (R101, R102), one law for each row of the state
machine (R110) from Idle on, and the statements about single transfers. -/

namespace Sys2Proof.Machine

/-! ### The packets of a message -/

theorem mul_lt_of_lt_packetCount {k size p : Nat} (h : k < packetCount size p) : k * p < size := by
  have hsize : size ≠ 0 := by
    rintro rfl
    exact absurd h (Nat.not_lt_zero k)
  have hlast := packetCount_mul_lt (p := p) hsize
  have hmul : (k + 1) * p ≤ packetCount size p * p := Nat.mul_le_mul_right p h
  rw [Nat.succ_mul] at hmul
  omega

/-- Settles O38: the packets reach the last byte, and every count that does is at least theirs. -/
theorem packetCountIsCeiling : Obligations.PacketCountIsCeiling := by
  intro size p hp
  refine ⟨?_, fun q hq => ?_⟩
  · by_cases hsize : size = 0
    · simp [hsize]
    · rw [packetCount, if_neg hsize, Nat.succ_mul]
      have hdiv : size - 1 < (size - 1) / p * p + p := Nat.lt_div_mul_add hp
      omega
  · by_contra hlt
    have hshort : q * p < size := mul_lt_of_lt_packetCount (Nat.lt_of_not_le hlt)
    omega

theorem timeoutCount_le (k p : Nat) : timeoutCount k p ≤ k * p := by
  refine Nat.mul_le_mul_right p ?_
  split <;> omega

namespace State

theorem byteAt_chunk (s : State) {size k i : Nat} (hi : i < s.payloadSize) :
    byteAt (s.chunk size k) i = s.messageByte size (k * s.payloadSize + i) := by
  rw [payloadSize_eq] at hi
  simp [byteAt, chunk, hi]

/-- A message that fits IBUF is read at its own addresses. -/
theorem messageByte_eq (s : State) {size : Nat} (h : size ≤ 512) (x : Nat) :
    s.messageByte size x = if x < size then Memory.read s.ibuf x else 0x00 := by
  unfold messageByte
  split
  · rw [Nat.mod_eq_of_lt (by omega)]
  · rfl

end State

/-- Settles O39: a byte of a packet is a byte of the message, and those are read below `size` alone. -/
theorem chunkIsZeroPadded : Obligations.ChunkIsZeroPadded := by
  intro s size k hsize
  have hfits : size ≤ 512 := by omega
  refine ⟨s.length_chunk size k, fun i hi => ?_, fun m hm => ?_⟩
  · rw [s.byteAt_chunk hi, s.messageByte_eq hfits]
  · refine List.map_congr_left fun i _ => ?_
    rw [State.messageByte_eq _ hfits, State.messageByte_eq _ hfits]
    exact ite_congr rfl (hm _) fun _ => rfl

namespace State

variable {s : State}

/-! ### The rows of R110 -/

/-- SEND accepted, before its first transfer: its own operands are latched. -/
def latchSend (s : State) (a n : Byte) (blk : Bool) : State := (((s.latchOp 0xA).latchA a).latchN n).latchBlk blk

theorem exec_send (s : State) (a n : Byte) (blk : Bool) :
    exec (.send a n blk) s = .next (s.latchSend a n blk).startSend.runCommand := rfl

/-- Step 1 of R100. -/
theorem buildPacket_eq (hop : s.cmd.op = 0xA) : s.buildPacket = { s with
    fsm := .sending, line := [], part := 0, txf := s.packetFrame s.cmd.a s.cmd.n.toNat s.work.k.toNat
    prog := { s.prog with resend := false }, work := { s.work with crc := s.buildPacket.work.crc } } := by
  unfold buildPacket
  rw [opSize_send hop]
  rfl

/-- From Idle with nothing to send (R112 (a)). -/
theorem startSend_empty (hop : s.cmd.op = 0xA) (hn : s.cmd.n.toNat = 0) : s.startSend = { s with
    fsm := .idle, line := [], part := 0, resValid := true, res := {}, work := { s.work with pkts := 0 } } := by
  have hsize : s.opSize = 0 := (opSize_send hop).trans hn
  rw [startSend, if_pos hsize, countPackets, hsize]
  show (s.setPkts 0).complete { val := BitVec.ofNat 16 s.opSize } = _
  rw [hsize]
  rfl

/-- From Idle with a message to send: packet 0 is built. -/
theorem startSend_message (hop : s.cmd.op = 0xA) (hn : s.cmd.n.toNat ≠ 0) : s.startSend = { s with
    fsm := .sending, line := [], part := 0, txf := s.packetFrame s.cmd.a s.cmd.n.toNat 0
    prog := { s.prog with resend := false }
    work := { s.work with
      pkts := BitVec.ofNat 8 (packetCount s.cmd.n.toNat s.payloadSize), k := 0, crc := s.startSend.work.crc } } := by
  have hsize : s.opSize = s.cmd.n.toNat := opSize_send hop
  rw [startSend, if_neg (hsize.trans_ne hn), countPackets, hsize]
  exact buildPacket_eq (s := (s.setPkts _).setK 0) hop

/-- After a packet that is not the last. -/
theorem nextPacket_more (hop : s.cmd.op = 0xA) (hk : s.work.k.toNat + 1 < s.work.pkts.toNat) :
    s.nextPacket = { s with
      fsm := .sending, line := [], part := 0, txf := s.packetFrame s.cmd.a s.cmd.n.toNat (s.work.k.toNat + 1)
      prog := { s.prog with resend := false }
      work := { s.work with k := s.work.k + 1, crc := s.nextPacket.work.crc } } := by
  have hsucc : (s.work.k + 1).toNat = s.work.k.toNat + 1 := by bv_omega
  rw [nextPacket, if_pos hk, ← hsucc]
  exact buildPacket_eq (s := s.setK (s.work.k + 1)) hop

/-- After the last packet (R109). -/
theorem nextPacket_last (hop : s.cmd.op = 0xA) (hk : s.work.pkts.toNat ≤ s.work.k.toNat + 1) :
    s.nextPacket = { s with
      fsm := .idle, line := [], part := 0, resValid := true, res := { val := zext16 s.cmd.n } } := by
  rw [nextPacket, if_neg (Nat.not_lt.mpr hk), completeSize, opSize_send hop, BitVec.ofNat_toNat]
  rfl

/-- A retransmission (R107). -/
theorem tickSending_resend (hr : s.prog.resend = true) : s.tickSending = { s with
    fsm := .awaitingAck, part := 0, trace := s.trace ++ (s.txf.drop s.part).map .tx
    work := { s.work with attempts := s.work.attempts + 1 } } := by
  rw [tickSending, if_pos hr, transmit_eq]
  rfl

/-- A first transmission: the frame and its settle delay (R103). -/
theorem tickSending_first (hr : s.prog.resend = false) : s.tickSending = afterFirst { s with
    trace := s.trace ++ (s.txf.drop s.part).map .tx ++ [.delay s.par.settleUnits] } := by
  rw [tickSending, if_neg (Bool.eq_false_iff.mp hr), transmit_eq]
  rfl

/-- A blocking SEND goes on to the acknowledge wait, with a fresh budget (R107). -/
theorem tickSending_blocking (hop : s.cmd.op = 0xA) (hr : s.prog.resend = false) (hb : s.cmd.blk = true) :
    s.tickSending = { s with
      fsm := .awaitingAck, part := 0
      trace := s.trace ++ (s.txf.drop s.part).map .tx ++ [.delay s.par.settleUnits]
      work := { s.work with attempts := 0 } } := by
  rw [tickSending_first hr]
  exact if_pos ((opBlk_send hop).trans hb)

/-- A non-blocking SEND goes on to the next packet (R108). -/
theorem tickSending_nonBlocking (hop : s.cmd.op = 0xA) (hr : s.prog.resend = false) (hb : s.cmd.blk = false) :
    s.tickSending = nextPacket { s with
      trace := s.trace ++ (s.txf.drop s.part).map .tx ++ [.delay s.par.settleUnits] } := by
  rw [tickSending_first hr]
  exact if_neg (Bool.eq_false_iff.mp ((opBlk_send hop).trans hb))

/-- The match of an attempt, as the claims say it (R105). -/
theorem ackMatches_sync (w : List Byte) :
    s.ackMatches (sync s.payloadSize w s.cfg.myaddr true) = s.windowAcks s.txf w := by
  unfold ackMatches windowAcks
  cases sync s.payloadSize w s.cfg.myaddr true <;> rfl

/-- The verdict of an attempt changes the control state alone (R105 to R107). -/
theorem judgeAttempt_eq (r : SyncResult) :
    s.judgeAttempt r = { s with fsm := (s.judgeAttempt r).fsm, line := [], part := 0 } ∧
    (s.judgeAttempt r).fsm = if s.ackMatches r then .acked
      else if s.cfg.tmoatt.toNat < s.work.attempts.toNat then .timedOut else .retrying := by
  unfold judgeAttempt
  split
  · exact ⟨rfl, rfl⟩
  · split <;> exact ⟨rfl, rfl⟩

/-- An attempt: one capture, and its verdict (R104 to R107). -/
theorem tickAwaitingAck_eq (s : State) :
    s.tickAwaitingAck = { s with
      win := s.nextWindow, line := [], part := 0, rx := s.rx.drop (s.windowRest - s.line.length)
      draws := s.tickAwaitingAck.draws, trace := s.trace ++ s.nextBytes.map .rx
      work := { s.work with o := s.tickAwaitingAck.work.o, crc := s.tickAwaitingAck.work.crc }
      fsm := s.tickAwaitingAck.fsm } ∧
    s.tickAwaitingAck.fsm = if s.windowAcks s.txf s.nextWindow then .acked
      else if s.cfg.tmoatt.toNat < s.work.attempts.toNat then .timedOut else .retrying := by
  let judged := s.capture.scanned s.cfg.myaddr true
  obtain ⟨heq, hfsm⟩ := judged.judgeAttempt_eq (s.capture.scanResult s.cfg.myaddr true)
  constructor
  · rw [tickAwaitingAck, heq]
    simp only [judged, capture_eq]
    rfl
  · rw [← ackMatches_sync]
    refine hfsm.trans ?_
    simp only [judged, capture_eq]
    rfl

end State

open State

/-! ### Single transfers -/

/-- Settles O36: an empty message completes out of Idle, and a completed command runs no further. -/
theorem sendOfNothingCompletes : Obligations.SendOfNothingCompletes := by
  intro s a blk
  have hidle := startSend_empty (s := s.latchSend a 0 blk) rfl rfl
  rw [exec_send, hidle, runCommand, run_idle _ _ rfl]
  rfl

/-- Settles O42: each row of R110 by its own law. -/
theorem sendControlTransfers : Obligations.SendControlTransfers := by
  intro s hop hq hs tx bytes window next
  have hstep {f : Fsm} (hf : s.fsm = f) (hbusy : f ≠ .idle) : step s = .next s.tick := step_tick (hf ▸ hbusy) hq hs
  let sent : State := { s with trace := s.trace ++ tx ++ [.delay s.par.settleUnits] }
  refine ⟨fun hf hr => ?_, fun hf hr hb => ?_, fun hf hr hb => ?_, fun hf => ?_, fun hf => ?_, fun hf => ?_,
    fun hf => ?_⟩
  · rw [hstep hf (by decide), tick_sending hf, tickSending_resend hr]
  · rw [hstep hf (by decide), tick_sending hf, tickSending_blocking hop hr hb]
  · rw [hstep hf (by decide), tick_sending hf, tickSending_nonBlocking hop hr hb]
    exact ⟨sent.nextPacket, rfl, nextPacket_more (s := sent) hop, nextPacket_last (s := sent) hop⟩
  · rw [hstep hf (by decide), tick_awaitingAck hf]
    exact ⟨_, rfl, tickAwaitingAck_eq s⟩
  · rw [hstep hf (by decide), tick_retrying hf]
    rfl
  · rw [hstep hf (by decide), tick_acked hf]
    exact ⟨_, rfl, nextPacket_more hop, nextPacket_last hop⟩
  · rw [hstep hf (by decide), tick_timedOut hf]
    rfl

/-- Settles O43: the packet that timed out begins inside the message, and the packets counted end where it begins. -/
theorem timeoutReportsPartialCount : Obligations.TimeoutReportsPartialCount := by
  intro s hi hf hq count
  obtain ⟨hs, -, -⟩ := hi.sends (by simp [hf, Fsm.sendSide])
  have hlt : count < s.cmd.n.toNat :=
    (timeoutCount_le _ _).trans_lt (mul_lt_of_lt_packetCount (hs.pkts ▸ hs.k_lt))
  have hn := s.cmd.n.isLt
  refine ⟨?_, ?_, hlt⟩
  · rw [step_tick (by simp [hf]) hq (by simp [stalled, hf]), tick_timedOut hf]
    rfl
  · rw [BitVec.toNat_ofNat, Nat.mod_eq_of_lt (by omega)]

end Sys2Proof.Machine
end

section
/-! What every SEND leaves unchanged (43_send.md R100): beginning it and each of its transfers keep what it does not
use, so a run of them does. -/

namespace Sys2Proof.Machine.State

variable {s : State}

/-- From `s` to `t` nothing has changed that SEND does not use, and the transfer under way is at its first request. -/
abbrev SendKeeps (s t : State) : Prop :=
  t = { s with
    fsm := t.fsm, res := t.res, resValid := t.resValid, txf := t.txf, win := t.win, trace := t.trace
    part := 0, line := t.line, rx := t.rx, draws := t.draws
    work := { t.work with bytesDone := s.work.bytesDone }, prog := { s.prog with resend := t.prog.resend } }

theorem SendKeeps.trans {t u : State} (h : SendKeeps s t) (h' : SendKeeps t u) : SendKeeps s u := by
  refine Eq.trans h' ?_
  rw [h]

/-- SEND's completions find nothing and are no ILL (R106, R109). -/
abbrev SendEnds (t : State) : Prop := t.fsm = .idle → t.res.fnd = false ∧ t.res.ill = false

theorem nextPacket_sendKeeps (hop : s.cmd.op = 0xA) : SendKeeps s s.nextPacket ∧ SendEnds s.nextPacket := by
  rcases Nat.lt_or_ge (s.work.k.toNat + 1) s.work.pkts.toNat with hk | hk
  · rw [nextPacket_more hop hk]
    exact ⟨rfl, nofun⟩
  · rw [nextPacket_last hop hk]
    exact ⟨rfl, fun _ => ⟨rfl, rfl⟩⟩

theorem tickSending_sendKeeps (hop : s.cmd.op = 0xA) : SendKeeps s s.tickSending ∧ SendEnds s.tickSending := by
  cases hr : s.prog.resend with
  | true =>
    rw [tickSending_resend hr]
    exact ⟨rfl, nofun⟩
  | false =>
    cases hb : s.cmd.blk with
    | true =>
      rw [tickSending_blocking hop hr hb]
      exact ⟨rfl, nofun⟩
    | false =>
      rw [tickSending_nonBlocking hop hr hb]
      exact nextPacket_sendKeeps hop

theorem tick_sendKeeps (hop : s.cmd.op = 0xA) (hf : s.fsm.sendSide) : SendKeeps s s.tick ∧ SendEnds s.tick := by
  rcases hf with hf | hf | hf | hf | hf
  · rw [tick_sending hf]
    exact tickSending_sendKeeps hop
  · obtain ⟨heq, hfsm⟩ := tickAwaitingAck_eq s
    rw [tick_awaitingAck hf]
    refine ⟨?_, fun hi => ?_⟩
    · rw [heq]
    · rw [hi] at hfsm
      split at hfsm
      · cases hfsm
      · split at hfsm <;> cases hfsm
  · rw [tick_acked hf]
    exact nextPacket_sendKeeps hop
  · rw [tick_retrying hf]
    exact ⟨rfl, nofun⟩
  · rw [tick_timedOut hf]
    exact ⟨rfl, fun _ => ⟨rfl, rfl⟩⟩

theorem startSend_sendKeeps (hop : s.cmd.op = 0xA) : SendKeeps s s.startSend ∧ SendEnds s.startSend := by
  by_cases hn : s.cmd.n.toNat = 0
  · rw [startSend_empty hop hn]
    exact ⟨rfl, fun _ => ⟨rfl, rfl⟩⟩
  · rw [startSend_message hop hn]
    exact ⟨rfl, nofun⟩

/-- A SEND, however far it runs. -/
theorem run_startSend_sendKeeps (hop : s.cmd.op = 0xA) (n : Nat) :
    SendKeeps s (run n s.startSend) ∧ SendEnds (run n s.startSend) := by
  have hop' : s.startSend.cmd.op = 0xA := (startSend_sameOutside s).cmd ▸ hop
  have hfsm : s.startSend.fsm.sendSide ∨ s.startSend.fsm = .idle := (startSend_fsm s).imp_left Or.inl
  obtain ⟨-, -, hrun⟩ := run_induction
    (Q := fun t => t.cmd.op = 0xA ∧ (t.fsm.sendSide ∨ t.fsm = .idle) ∧ SendKeeps s t ∧ SendEnds t)
    (fun t ⟨hopt, hf, hkeeps, _⟩ hbusy =>
      have hside := hf.resolve_right hbusy
      have ⟨hkeeps', hends⟩ := tick_sendKeeps hopt hside
      ⟨tick_cmd t ▸ hopt, tick_sendSide hside, hkeeps.trans hkeeps', hends⟩)
    n ⟨hop', hfsm, startSend_sendKeeps hop⟩
  exact hrun

end Sys2Proof.Machine.State

namespace Sys2Proof.Machine

open State

/-- Settles O44: beginning a SEND and each of its transfers keep what SEND does not use. -/
theorem sendFrame : Obligations.SendFrame := by
  intro s t a n blk h
  cases h
  exact run_startSend_sendKeeps (s := s.latchSend a n blk) rfl _

end Sys2Proof.Machine
end

section
/-! The run of a non-blocking SEND (43_send.md R103, R108, R109): each packet's first transmission, in order. -/

namespace Sys2Proof.Machine.State

variable {s : State}

/-- Where the link answers, a command runs on but for a capture with no byte listed for the oracle. -/
theorem awaitsLink_eq_false (hs : s.silent = false) (h : s.fsm.listens = false ∨ s.rx ≠ []) :
    s.awaitsLink = false := by
  rw [awaitsLink, stalled_of_answering hs]
  rcases h with h | h
  · rw [h, Bool.and_false]
    rfl
  · simp [h]

/-- Away from a capture a running command makes its next transfer, where the link answers. -/
theorem run_answered {f : Fsm} (hf : s.fsm = f) (hs : s.silent = false) (hi : f ≠ .idle) (hl : f.listens = false)
    (n : Nat) : run (n + 1) s = run n s.tick :=
  run_tick s (hf ▸ hi) (awaitsLink_eq_false hs (Or.inl (hf ▸ hl)))

/-- The link events of a packet's first transmission: its frame and the settle delay (R102, R103). -/
def firstTransmission (s : State) (k : Nat) : List LinkEvent :=
  (s.packetFrame s.cmd.a s.cmd.n.toNat k).map .tx ++ [.delay s.par.settleUnits]

/-- Packet `k` has been sent so, and the transfer to the next packet is to come. -/
def firstSent (s : State) (k : Nat) : State := { s with trace := s.trace ++ s.firstTransmission k }

/-- SEND is about to transmit the whole frame of packet `k` for the first time, on a link that answers. -/
structure SendsFirst (s : State) (k : Nat) : Prop where
  op : s.cmd.op = 0xA
  silent : s.silent = false
  fsm : s.fsm = .sending
  resend : s.prog.resend = false
  part : s.part = 0
  index : s.work.k.toNat = k
  txf : s.txf = s.packetFrame s.cmd.a s.cmd.n.toNat k

theorem startSend_sendsFirst (hop : s.cmd.op = 0xA) (hn : s.cmd.n.toNat ≠ 0) (hs : s.silent = false) :
    s.startSend.SendsFirst 0 := by
  rw [startSend_message hop hn]
  exact ⟨hop, hs, rfl, rfl, rfl, rfl, rfl⟩

theorem startSend_pkts (hop : s.cmd.op = 0xA) (hn : s.cmd.n.toNat ≠ 0) :
    s.startSend.work.pkts.toNat = packetCount s.cmd.n.toNat s.payloadSize := by
  rw [startSend_message hop hn, ← opSize_send hop]
  exact s.pkts_toNat

/-- A first transmission makes its requests without waiting. -/
theorem SendsFirst.run_succ {k : Nat} (h : s.SendsFirst k) (m : Nat) : run (m + 1) s = run m s.tickSending := by
  rw [run_answered h.fsm h.silent (by decide) rfl, tick_sending h.fsm]

theorem SendsFirst.events {k : Nat} (h : s.SendsFirst k) :
    (s.txf.drop s.part).map .tx ++ [.delay s.par.settleUnits] = s.firstTransmission k := by
  rw [h.part, h.txf]
  rfl

theorem SendsFirst.tickSending_nonBlocking {k : Nat} (h : s.SendsFirst k) (hb : s.cmd.blk = false) :
    s.tickSending = (s.firstSent k).nextPacket := by
  rw [State.tickSending_nonBlocking h.op h.resend hb, List.append_assoc, h.events]
  rfl

/-- With `left` packets to come after the one in TXF a non-blocking SEND sends them all, in order (R108, R109). -/
theorem run_nonBlocking {k left m : Nat} {t : State} (h : s.SendsFirst k) (hb : s.cmd.blk = false)
    (hpkts : s.work.pkts.toNat = k + left + 1) (hm : left ≤ m) (ht : t = run (m + 1) s) :
    t = { s with
      fsm := .idle, line := [], part := 0, resValid := true, res := { val := zext16 s.cmd.n }, txf := t.txf
      trace := s.trace ++ (List.range' k (left + 1)).flatMap s.firstTransmission
      work := { s.work with k := t.work.k, crc := t.work.crc }, prog := { s.prog with resend := t.prog.resend } } := by
  induction left generalizing s k m with
  | zero =>
    have hlast : s.work.pkts.toNat ≤ s.work.k.toNat + 1 := by rw [hpkts, h.index]
    rw [h.run_succ, h.tickSending_nonBlocking hb, nextPacket_last (s := s.firstSent k) h.op hlast,
      run_idle _ _ rfl] at ht
    rw [ht, List.range'_one, List.flatMap_singleton]
    rfl
  | succ left ih =>
    obtain ⟨i, rfl⟩ : ∃ i, m = i + 1 := Nat.exists_eq_succ_of_ne_zero (by omega)
    have hk := h.index
    have hmore : s.work.k.toNat + 1 < s.work.pkts.toNat := by omega
    have hsucc : (s.work.k + 1).toNat = s.work.k.toNat + 1 := by bv_omega
    have hnext := nextPacket_more (s := s.firstSent k) h.op hmore
    rw [h.run_succ, h.tickSending_nonBlocking hb] at ht
    generalize (s.firstSent k).nextPacket = next at hnext ht
    have hfirst : next.SendsFirst (k + 1) := by
      rw [hnext, ← hk]
      exact ⟨h.op, h.silent, rfl, rfl, rfl, hsucc, rfl⟩
    have hblk : next.cmd.blk = false := by
      rw [hnext]
      exact hb
    have hleft : next.work.pkts.toNat = k + 1 + left + 1 := by
      rw [hnext, Nat.add_right_comm k 1 left]
      exact hpkts
    have hrest := ih hfirst hblk hleft (Nat.le_of_succ_le_succ hm) ht
    rw [hrest, hnext, List.range'_succ (s := k) (n := left + 1), List.flatMap_cons, ← List.append_assoc]
    rfl

/-- A non-blocking SEND, from its beginning on. -/
theorem runCommand_nonBlocking {t : State} (hop : s.cmd.op = 0xA) (hb : s.cmd.blk = false) (hs : s.silent = false)
    (ht : t = s.startSend.runCommand) :
    t = { s with
      fsm := .idle, line := [], part := 0, resValid := true, res := { val := zext16 s.cmd.n }, txf := t.txf
      trace := s.trace ++ (List.range (packetCount s.cmd.n.toNat s.payloadSize)).flatMap s.firstTransmission
      work := { s.work with pkts := t.work.pkts, k := t.work.k, crc := t.work.crc }
      prog := { s.prog with resend := t.prog.resend } } := by
  by_cases hn : s.cmd.n.toNat = 0
  · have hzero : s.cmd.n = 0 := BitVec.eq_of_toNat_eq hn
    have hnone : packetCount s.cmd.n.toNat s.payloadSize = 0 := if_pos hn
    have hidle : t = s.startSend := ht.trans (run_idle _ _ (by rw [startSend_empty hop hn]))
    rw [hidle, startSend_empty hop hn, hnone, List.range_zero, List.flatMap_nil, List.append_nil, hzero]
    rfl
  · obtain ⟨left, hleft⟩ : ∃ left, packetCount s.cmd.n.toNat s.payloadSize = left + 1 :=
      Nat.exists_eq_succ_of_ne_zero (packetCount_pos hn).ne'
    have hfirst := startSend_sendsFirst hop hn hs
    have hblk : s.startSend.cmd.blk = false := (startSend_sameOutside s).cmd ▸ hb
    have hle := packetCount_le s.cmd.n.toNat s.payloadSize
    have hlt := s.cmd.n.isLt
    have hpkts : s.startSend.work.pkts.toNat = 0 + left + 1 := by
      rw [startSend_pkts hop hn, hleft, Nat.zero_add]
    have hrun := run_nonBlocking hfirst hblk hpkts (by omega) ht
    rw [startSend_message hop hn] at hrun
    rw [hrun, hleft, List.range_eq_range']
    rfl

end Sys2Proof.Machine.State

namespace Sys2Proof.Machine

open State

/-- Settles O37: the run's trace is the first transmission of each packet, in order. -/
theorem nonBlockingSendTransmitsAll : Obligations.NonBlockingSendTransmitsAll := by
  intro s a n hs
  have hrun := runCommand_nonBlocking (s := s.latchSend a n false) rfl rfl hs rfl
  exact ⟨_, exec_send s a n false, by rw [hrun]; rfl, congrArg trace hrun⟩

end Sys2Proof.Machine
end

section
/-! The attempts of a blocking SEND (43_send.md R104 to R107, R111) on the windows listed for the oracle: any number of
failed ones inside the budget, and the last one, matched or beyond it. -/

namespace Sys2Proof.Machine.State

variable {s : State}

/-- A blocking SEND is about to capture a whole window for an attempt, on a link that answers. -/
structure AwaitsAck (s : State) : Prop where
  op : s.cmd.op = 0xA
  blk : s.cmd.blk = true
  silent : s.silent = false
  fsm : s.fsm = .awaitingAck
  part : s.part = 0
  line : s.line = []

/-- With nothing heard on the line the oracle's next listed bytes fill the window (20_memory.md R38, R41). -/
theorem AwaitsAck.nextWindow (h : s.AwaitsAck) (hrx : s.windowSize ≤ s.rx.length) :
    s.nextWindow = s.listedWindow 0 ∧ s.nextBytes = s.listedWindow 0 := by
  obtain ⟨-, hnext, -⟩ := nextWindow_of_line h.part (h.line ▸ Nat.zero_le _)
  have hbytes : s.nextBytes = s.listedWindow 0 := by
    rw [nextBytes, windowRest, h.part, linkBytes, h.line, List.length_nil, Nat.sub_zero, Nat.zero_add,
      Nat.sub_eq_zero_of_le hrx, List.range_zero, List.map_nil, List.append_nil, listedWindow, Nat.zero_mul]
    rfl
  exact ⟨hnext.trans hbytes, hbytes⟩

/-- An attempt on the oracle's next listed window (R104 to R107). -/
theorem AwaitsAck.attempt (h : s.AwaitsAck) (hrx : s.windowSize ≤ s.rx.length) :
    s.tickAwaitingAck = { s with
      win := s.listedWindow 0, line := [], part := 0, rx := s.rx.drop s.windowSize, draws := s.tickAwaitingAck.draws
      trace := s.trace ++ (s.listedWindow 0).map .rx
      work := { s.work with o := s.tickAwaitingAck.work.o, crc := s.tickAwaitingAck.work.crc }
      fsm := s.tickAwaitingAck.fsm } ∧
    s.tickAwaitingAck.fsm = if s.windowAcks s.txf (s.listedWindow 0) then .acked
      else if s.cfg.tmoatt.toNat < s.work.attempts.toNat then .timedOut else .retrying := by
  have heq := tickAwaitingAck_eq s
  obtain ⟨hwin, hbytes⟩ := h.nextWindow hrx
  rw [hwin, hbytes, windowRest, h.part, h.line] at heq
  exact heq

/-- The listed bytes keep the attempt from waiting for ever (44_recv.md R129). -/
theorem AwaitsAck.run_succ (h : s.AwaitsAck) (hrx : s.windowSize ≤ s.rx.length) (n : Nat) :
    run (n + 1) s = run n s.tickAwaitingAck := by
  have hlisted : s.rx ≠ [] := List.ne_nil_of_length_pos (Nat.lt_of_lt_of_le (by simp) hrx)
  rw [run_tick s (by simp [h.fsm]) (awaitsLink_eq_false h.silent (Or.inr hlisted)), tick_awaitingAck h.fsm]

/-- The link events of attempt `j` where it fails: its window, the retry delay and the same frame again (R107). -/
def missedAttempt (s : State) (j : Nat) : List LinkEvent :=
  (s.listedWindow j).map .rx ++ [.delay s.par.retryUnits] ++ s.txf.map .tx

/-- From `s` to `t` the next `m` attempts on the packet in flight have failed, and another is to be made. -/
structure Missed (s : State) (m : Nat) (t : State) : Prop where
  awaits : t.AwaitsAck
  outside : SameOutside s t
  txf : t.txf = s.txf
  pkts : t.work.pkts = s.work.pkts
  k : t.work.k = s.work.k
  attempts : t.work.attempts = s.work.attempts + BitVec.ofNat 8 m
  rx : t.rx = s.rx.drop (m * s.windowSize)
  trace : t.trace = s.trace ++ (List.range m).flatMap s.missedAttempt

theorem AwaitsAck.missed_zero (h : s.AwaitsAck) : Missed s 0 s :=
  ⟨h, .refl s, rfl, rfl, rfl, (BitVec.add_zero _).symm, by rw [Nat.zero_mul, List.drop_zero],
    (List.append_nil _).symm⟩

/-- The retry delay and the same frame again (R107). -/
theorem run_retrying (hf : s.fsm = .retrying) (hs : s.silent = false) (n : Nat) : run (n + 2) s = run n { s with
    fsm := .awaitingAck, line := [], part := 0, trace := s.trace ++ [.delay s.par.retryUnits] ++ s.txf.map .tx
    work := { s.work with attempts := s.work.attempts + 1 }, prog := { s.prog with resend := true } } := by
  have hsent := tickSending_resend (s := s.tickRetrying) rfl
  rw [run_answered hf hs (by decide) rfl, tick_retrying hf,
    run_answered (f := .sending) (s := s.tickRetrying) rfl hs (by decide) rfl, tick_sending rfl, hsent]
  rfl

/-- A failed attempt inside the budget. -/
theorem AwaitsAck.missed_one (h : s.AwaitsAck) (hrx : s.windowSize ≤ s.rx.length)
    (hmiss : s.windowAcks s.txf (s.listedWindow 0) = false) (hbudget : s.work.attempts.toNat ≤ s.cfg.tmoatt.toNat) :
    ∃ t, Missed s 1 t ∧ ∀ n, run (n + 3) s = run n t := by
  obtain ⟨heq, hfsm⟩ := h.attempt hrx
  have hrun := h.run_succ hrx
  rw [hmiss, if_neg (by decide), if_neg (Nat.not_lt.mpr hbudget)] at hfsm
  generalize s.tickAwaitingAck = c at heq hfsm hrun
  have hsilent : c.silent = false := by rw [heq]; exact h.silent
  refine ⟨_, ?_, fun n => by rw [hrun, run_retrying hfsm hsilent]⟩
  rw [heq]
  exact {
    awaits := ⟨h.op, h.blk, h.silent, rfl, rfl, rfl⟩
    outside := ⟨rfl, rfl, rfl, rfl, rfl, rfl, rfl⟩
    txf := rfl
    pkts := rfl
    k := rfl
    attempts := rfl
    rx := by rw [Nat.one_mul]
    trace := by simp [missedAttempt] }

theorem Missed.windowSize {t : State} {m : Nat} (h : Missed s m t) : t.windowSize = s.windowSize :=
  congrArg Params.windowSize h.outside.par

/-- The windows of the failed attempts are used up. -/
theorem Missed.listedWindow_zero {t : State} {m : Nat} (h : Missed s m t) : t.listedWindow 0 = s.listedWindow m := by
  rw [listedWindow, listedWindow, h.windowSize, h.rx, slice, slice, Nat.zero_mul, List.drop_zero]

theorem Missed.length_rx {t : State} {m : Nat} (h : Missed s m t) (hrx : (m + 1) * s.windowSize ≤ s.rx.length) :
    t.windowSize ≤ t.rx.length := by
  rw [Nat.succ_mul] at hrx
  rw [h.windowSize, h.rx, List.length_drop]
  omega

/-- The next attempt matches where the window listed for it does. -/
theorem Missed.windowAcks {t : State} {m : Nat} (h : Missed s m t) :
    t.windowAcks t.txf (t.listedWindow 0) = s.windowAcks s.txf (s.listedWindow m) := by
  have hpayload : t.payloadSize = s.payloadSize := congrArg Params.payloadSize h.outside.par
  have hframe : t.frameSize = s.frameSize := congrArg Params.frameSize h.outside.par
  rw [h.listedWindow_zero, h.txf]
  unfold State.windowAcks
  rw [hpayload, hframe, h.outside.cfg]

theorem Missed.succ {t u : State} {m : Nat} (h : Missed s m t) (h' : Missed t 1 u) : Missed s (m + 1) u := by
  have hevents : t.missedAttempt 0 = s.missedAttempt m := by
    rw [missedAttempt, missedAttempt, h.listedWindow_zero, h.txf, h.outside.par]
  exact {
    awaits := h'.awaits
    outside := h.outside.trans h'.outside
    txf := h'.txf.trans h.txf
    pkts := h'.pkts.trans h.pkts
    k := h'.k.trans h.k
    attempts := by rw [h'.attempts, h.attempts, BitVec.add_assoc, ← BitVec.ofNat_add]
    rx := by rw [h'.rx, h.rx, h.windowSize, List.drop_drop, Nat.one_mul, Nat.succ_mul]
    trace := by
      rw [h'.trace, h.trace, List.range_one, List.flatMap_singleton, hevents, List.range_succ, List.flatMap_append,
        List.flatMap_singleton, List.append_assoc] }

/-- As many failed attempts as the budget allows and the oracle lists windows for. -/
theorem AwaitsAck.run_missed (h : s.AwaitsAck) (m : Nat) (hrx : m * s.windowSize ≤ s.rx.length)
    (hmiss : ∀ j, j < m → s.windowAcks s.txf (s.listedWindow j) = false)
    (hbudget : ∀ j, j < m → (s.work.attempts + BitVec.ofNat 8 j).toNat ≤ s.cfg.tmoatt.toNat) :
    ∃ t, Missed s m t ∧ ∀ n, run (n + 3 * m) s = run n t := by
  induction m with
  | zero => exact ⟨s, h.missed_zero, fun _ => rfl⟩
  | succ m ih =>
    have hle : m * s.windowSize ≤ (m + 1) * s.windowSize := Nat.mul_le_mul_right _ (Nat.le_succ m)
    obtain ⟨t, ht, hrun⟩ := ih (hle.trans hrx) (fun j hj => hmiss j (by omega)) fun j hj => hbudget j (by omega)
    have hm : t.work.attempts.toNat ≤ t.cfg.tmoatt.toNat := by
      rw [ht.attempts, ht.outside.cfg]
      exact hbudget m (Nat.lt_succ_self m)
    obtain ⟨u, hu, hrun'⟩ := ht.awaits.missed_one (ht.length_rx hrx)
      (ht.windowAcks.trans (hmiss m (Nat.lt_succ_self m))) hm
    exact ⟨u, ht.succ hu, fun n => by rw [← hrun', ← hrun]; congr 1; omega⟩

/-- What an attempt that ends SEND leaves, but for the results. -/
def lastAttempt (s : State) (r : Result) : State := { s with
  fsm := .idle, line := [], part := 0, resValid := true, res := r
  win := s.listedWindow 0, rx := s.rx.drop s.windowSize, draws := s.tickAwaitingAck.draws
  trace := s.trace ++ (s.listedWindow 0).map .rx
  work := { s.work with o := s.tickAwaitingAck.work.o, crc := s.tickAwaitingAck.work.crc } }

/-- A matching attempt on the last packet completes SEND (R105, R109). -/
theorem AwaitsAck.run_acked (h : s.AwaitsAck) (hrx : s.windowSize ≤ s.rx.length)
    (hack : s.windowAcks s.txf (s.listedWindow 0) = true) (hlast : s.work.pkts.toNat ≤ s.work.k.toNat + 1) (n : Nat) :
    run (n + 2) s = s.lastAttempt { val := zext16 s.cmd.n } := by
  obtain ⟨heq, hfsm⟩ := h.attempt hrx
  rw [hack, if_pos rfl] at hfsm
  rw [hfsm] at heq
  have hout := tickAwaitingAck_sameOutside s
  have hdone := nextPacket_last (s := s.tickAwaitingAck) (hout.cmd ▸ h.op) (by rw [heq]; exact hlast)
  rw [h.run_succ hrx, run_answered hfsm (hout.silent.trans h.silent) (by decide) rfl, tick_acked hfsm, hdone,
    run_idle _ _ rfl, heq]
  rfl

/-- A failed attempt beyond the budget ends SEND (R106). -/
theorem AwaitsAck.run_timedOut (h : s.AwaitsAck) (hrx : s.windowSize ≤ s.rx.length)
    (hmiss : s.windowAcks s.txf (s.listedWindow 0) = false) (hbudget : s.cfg.tmoatt.toNat < s.work.attempts.toNat)
    (n : Nat) :
    run (n + 2) s = s.lastAttempt
      { val := BitVec.ofNat 16 (timeoutCount s.work.k.toNat s.payloadSize), tmo := true } := by
  obtain ⟨heq, hfsm⟩ := h.attempt hrx
  rw [hmiss, if_neg (by decide), if_pos hbudget] at hfsm
  rw [hfsm] at heq
  have hout := tickAwaitingAck_sameOutside s
  rw [h.run_succ hrx, run_answered hfsm (hout.silent.trans h.silent) (by decide) rfl, tick_timedOut hfsm,
    run_idle _ _ rfl, heq]
  rfl

/-- A blocking SEND before its first attempt: packet 0 and its settle delay have been sent (R103, R104). -/
def firstAttempt (s : State) : State := { s with
  fsm := .awaitingAck, line := [], part := 0, txf := s.packetFrame s.cmd.a s.cmd.n.toNat 0
  trace := s.trace ++ (s.packetFrame s.cmd.a s.cmd.n.toNat 0).map .tx ++ [.delay s.par.settleUnits]
  prog := { s.prog with resend := false }
  work := { s.work with
    pkts := BitVec.ofNat 8 (packetCount s.cmd.n.toNat s.payloadSize), k := 0, attempts := 0
    crc := s.startSend.work.crc } }

theorem startSend_tickSending (hop : s.cmd.op = 0xA) (hb : s.cmd.blk = true) (hn : s.cmd.n.toNat ≠ 0) :
    s.startSend.tickSending = s.firstAttempt := by
  have hout := startSend_sameOutside s
  have hresend : s.startSend.prog.resend = false := by rw [startSend_message hop hn]
  rw [tickSending_blocking (hout.cmd ▸ hop) hresend (hout.cmd ▸ hb), startSend_message hop hn]
  rfl

/-- A blocking SEND, from its beginning to the end of `m` failed attempts on packet 0. -/
theorem runCommand_blocking (hop : s.cmd.op = 0xA) (hb : s.cmd.blk = true) (hn : s.cmd.n.toNat ≠ 0)
    (hs : s.silent = false) (m : Nat) (hrx : (m + 1) * s.windowSize ≤ s.rx.length)
    (hmiss : ∀ j, j < m → s.windowAcks (s.packetFrame s.cmd.a s.cmd.n.toNat 0) (s.listedWindow j) = false)
    (hbudget : ∀ j, j < m → j % 256 ≤ s.cfg.tmoatt.toNat) :
    ∃ t n, Missed s.firstAttempt m t ∧ s.startSend.runCommand = run (n + 2) t := by
  have hm : m + 1 ≤ s.rx.length := (Nat.le_mul_of_pos_right (m + 1) (by simp)).trans hrx
  have hfuel : s.startSend.runBound = 3 * (s.rx.length - m) + 517 + 2 + 3 * m + 1 := by
    rw [runBound, startSend_message hop hn, List.length_nil]
    show 3 * (0 + s.rx.length) + 520 = _
    omega
  have hawaits : s.firstAttempt.AwaitsAck := ⟨hop, hb, hs, rfl, rfl, rfl⟩
  obtain ⟨t, ht, hrun⟩ := hawaits.run_missed m ((Nat.mul_le_mul_right _ (Nat.le_succ m)).trans hrx) hmiss
    fun j hj => (congrArg BitVec.toNat (BitVec.zero_add _)).trans_le (hbudget j hj)
  refine ⟨t, 3 * (s.rx.length - m) + 517, ht, ?_⟩
  rw [runCommand, hfuel, (startSend_sendsFirst hop hn hs).run_succ, startSend_tickSending hop hb hn, hrun]

end Sys2Proof.Machine.State

namespace Sys2Proof.Machine

open State

/-- Settles O40: the lost attempts stay in the budget, and the next one ends the message. -/
theorem sendSurvivesLostAcks : Obligations.SendSurvivesLostAcks := by
  intro s a n m hs hn hnP hrx hm frame hmiss hack
  have hbudget : ∀ j, j < m → j % 256 ≤ s.cfg.tmoatt.toNat := by
    intro j hj
    rcases hm with hm | hm
    · have hmod : j % 256 ≤ j := Nat.mod_le j 256
      omega
    · rw [hm]
      exact Nat.le_of_lt_succ (Nat.mod_lt j (by decide))
  obtain ⟨t, x, ht, hrun⟩ := runCommand_blocking (s := s.latchSend a n true) rfl rfl (Nat.ne_of_gt hn) hs m
    hrx hmiss hbudget
  have hlast : t.work.pkts.toNat ≤ t.work.k.toNat + 1 := by
    have hpkts : t.work.pkts = BitVec.ofNat 8 (packetCount n.toNat s.payloadSize) := ht.pkts
    rw [hpkts, packetCount_eq_one hn hnP]
    exact Nat.le_add_left 1 _
  have hdone := ht.awaits.run_acked (ht.length_rx hrx) (ht.windowAcks.trans hack) hlast x
  refine ⟨_, (exec_send s a n true).trans (congrArg _ (hrun.trans hdone)), rfl, rfl, ?_, ht.txf, ?_, ?_⟩
  · show ({ val := zext16 t.cmd.n } : Result) = _
    rw [ht.outside.cmd]
    rfl
  · show t.rx.drop t.windowSize = _
    rw [ht.rx, List.drop_drop, ht.windowSize, Nat.succ_mul]
    rfl
  · show t.trace ++ (t.listedWindow 0).map .rx = _
    rw [ht.trace, ht.listedWindow_zero]
    rfl

/-- Settles O41: `TMOATT + 1` attempts stay in the budget, and the next one is beyond it. -/
theorem sendTimesOutAfterBudget : Obligations.SendTimesOutAfterBudget := by
  intro s a n hs hn htmo hrx frame hmiss
  obtain ⟨t, x, ht, hrun⟩ := runCommand_blocking (s := s.latchSend a n true) rfl rfl (Nat.ne_of_gt hn) hs
    (s.cfg.tmoatt.toNat + 1) hrx (fun j hj => hmiss j (by omega))
    fun j hj => (Nat.mod_le j 256).trans (Nat.le_of_lt_succ hj)
  have hattempts : t.work.attempts.toNat = s.cfg.tmoatt.toNat + 1 := by
    have hsum : t.work.attempts = 0 + BitVec.ofNat 8 (s.cfg.tmoatt.toNat + 1) := ht.attempts
    bv_omega
  have hbudget : t.cfg.tmoatt.toNat < t.work.attempts.toNat := by
    rw [ht.outside.cfg, hattempts]
    exact Nat.lt_succ_self _
  have hdone := ht.awaits.run_timedOut (ht.length_rx hrx) (ht.windowAcks.trans (hmiss _ (Nat.lt_succ_self _))) hbudget x
  refine ⟨_, (exec_send s a n true).trans (congrArg _ (hrun.trans hdone)), rfl, rfl, ?_, ht.txf, hattempts, ?_⟩
  · show ({ val := BitVec.ofNat 16 (timeoutCount t.work.k.toNat t.payloadSize), tmo := true } : Result) = _
    rw [ht.k]
    simp [firstAttempt, timeoutCount]
  · show t.trace ++ (t.listedWindow 0).map .rx = _
    rw [ht.trace, ht.listedWindow_zero]
    rfl

end Sys2Proof.Machine
end

section
/-! The Reception Controller (44_recv.md R120): the head of the loop, a pass and its reply as one law each, and the
statements about a single transfer. -/

namespace Sys2Proof.Machine.State

variable {s : State}

/-! ### The commands, and the head of the loop -/

/-- RECV accepted, before its first transfer: its own operands are latched. -/
def latchRecv (s : State) (n : Byte) (blk ako : Bool) : State := (((s.latchOp 0xB).latchN n).latchBlk blk).latchAko ako

theorem exec_recv (s : State) (n : Byte) (blk ako : Bool) :
    exec (.recv n blk ako) s = .next (s.latchRecv n blk ako).startRecv.runCommand := rfl

theorem opBlk_congr {t : State} (hc : t.cmd = s.cmd) : t.opBlk = s.opBlk := by rw [opBlk, opBlk, isRecvack, isRecvack, hc]

theorem opAko_congr {t : State} (hc : t.cmd = s.cmd) : t.opAko = s.opAko := by rw [opAko, opAko, isRecvack, isRecvack, hc]

theorem opSize_congr {t : State} (hc : t.cmd = s.cmd) (hp : t.par = s.par) : t.opSize = s.opSize := by
  rw [opSize, opSize, isRecvack, isRecvack, payloadSize, payloadSize, hc, hp]

/-- The registers and variables of R120 are set, and the loop is to begin. -/
def loopStart (s : State) : State := s.dropLine.countPackets.clearRecv

theorem loopStart_eq (s : State) : s.loopStart = { s with
    line := []
    work := { s.work with pkts := BitVec.ofNat 8 (packetCount s.opSize s.payloadSize), bytesDone := 0, k := 0 }
    prog := { s.prog with fnd := false, la := 0, lb := 0, lc := 0 } } := rfl

theorem startRecv_eq (s : State) : s.startRecv = s.loopStart.recvHead := rfl

/-- The loop has ended (R128). -/
theorem recvHead_done (h : s.recvDone = true) : s.recvHead = { s with
    fsm := .idle, line := [], part := 0, resValid := true, res := s.recvResult } := if_pos h

/-- One more pass. -/
theorem recvHead_more (h : s.recvDone = false) : s.recvHead = { s with fsm := .receiving, part := 0 } :=
  if_neg (Bool.eq_false_iff.mp h)

/-- The test at the head of the loop (R122, R123). -/
abbrev LoopOver (s : State) : Prop :=
  if s.opBlk then s.opSize ≤ s.work.bytesDone.toNat else s.work.pkts.toNat ≤ s.work.k.toNat

theorem recvDone_iff (s : State) : s.recvDone = true ↔ s.LoopOver := by
  unfold recvDone LoopOver
  split <;> exact decide_eq_true_iff

@[simp] theorem recvHead_work (s : State) : s.recvHead.work = s.work := by
  unfold recvHead
  split <;> rfl

@[simp] theorem recvHead_draws (s : State) : s.recvHead.draws = s.draws := by
  unfold recvHead
  split <;> rfl

theorem recvNext_blocking (hb : s.opBlk = true) : s.recvNext = s.recvHead := if_pos hb

theorem recvNext_nonBlocking (hb : s.opBlk = false) : s.recvNext = (s.setK (s.work.k + 1)).recvHead :=
  if_neg (Bool.eq_false_iff.mp hb)

@[simp] theorem recvNext_draws (s : State) : s.recvNext.draws = s.draws := by
  unfold recvNext
  split <;> exact recvHead_draws _

theorem recvNext_work (s : State) : s.recvNext.work = { s.work with k := s.recvNext.work.k } := by
  cases hb : s.opBlk with
  | true => rw [recvNext_blocking hb, recvHead_work]
  | false => rw [recvNext_nonBlocking hb, recvHead_work]; rfl

/-! ### A pass -/

/-- What the capture and the scan of a pass leave (R121). -/
def passed (s : State) : State := s.capture.scanned s.cfg.myaddr s.opAko

/-- What the scan of the next window answers. -/
def nextScan (s : State) : SyncResult := sync s.payloadSize s.nextWindow s.cfg.myaddr s.opAko

theorem passed_eq (s : State) : s.passed = { s with
    win := s.nextWindow, line := s.line.drop s.windowRest, rx := s.rx.drop (s.windowRest - s.line.length)
    draws := s.passed.draws, trace := s.trace ++ s.nextBytes.map .rx
    work := { s.work with o := s.passed.work.o, crc := s.passed.work.crc } } := by
  unfold passed
  rw [capture_eq]
  rfl

theorem tickReceiving_eq (s : State) : s.tickReceiving = s.passed.recvCase s.nextScan := by
  unfold tickReceiving passed nextScan
  rw [capture_eq]
  rfl

theorem passed_sameOutside (s : State) : SameOutside s s.passed := by
  rw [passed_eq]
  exact ⟨rfl, rfl, rfl, rfl, rfl, rfl, rfl⟩

theorem passed_opBlk (s : State) : s.passed.opBlk = s.opBlk := by rw [passed_eq]; rfl

theorem tickReceiving_none (h : s.nextScan = .none) : s.tickReceiving = s.passed.recvNext := by
  rw [tickReceiving_eq, h]
  rfl

/-- An Ack match completes with the echo (R126). -/
theorem tickReceiving_ack {o : Nat} {e : Byte} (h : s.nextScan = .ack o e) : s.tickReceiving = { s.passed with
    fsm := .idle, line := [], part := 0, resValid := true
    res := { val := zext16 e, a := kindAck, b := byteAt s.nextWindow (o + 1), c := e, fnd := true } } := by
  rw [tickReceiving_eq, h, passed_eq]
  rfl

/-- After a Data match a blocking command goes on (R124, R125). -/
theorem tickReceiving_data_blocking {o : Nat} (h : s.nextScan = .data o) (hb : s.opBlk = true) :
    s.tickReceiving = (s.passed.recvAppend o).recvHead := by
  rw [tickReceiving_eq, h]
  exact if_pos ((passed_opBlk s).trans hb)

/-- After a Data match a non-blocking command replies (R124, R125). -/
theorem tickReceiving_data_nonBlocking {o : Nat} (h : s.nextScan = .data o) (hb : s.opBlk = false) :
    s.tickReceiving = (s.passed.recvAppend o).buildReply o := by
  rw [tickReceiving_eq, h]
  exact recvCase_data ((passed_opBlk s).trans hb) o

/-- Only a payload-mode scan answers with Data (R94). -/
theorem opAko_of_data {o : Nat} (h : s.nextScan = .data o) : s.opAko = false := ((sync_eq_data_iff o).mp h).1

/-- Only an Ack-only scan answers with an Ack (R94). -/
theorem opAko_of_ack {o : Nat} {e : Byte} (h : s.nextScan = .ack o e) : s.opAko = true := ((sync_eq_ack_iff o e).mp h).1

/-! ### What the invariant says of a pass and of a reply -/

theorem Inv.receiving (h : s.Inv) (hf : s.fsm = .receiving) : s.Receives ∧ s.PassDue ∧ s.part < s.windowSize := by
  have hreceives := h.receives (Or.inl hf)
  obtain ⟨-, ⟨-, -, -, -, hpart⟩, -, -, -, hrecv⟩ := h
  obtain ⟨-, -, -, hpass, -⟩ := hrecv (Or.inl hf)
  exact ⟨hreceives, hpass hf, hpart (by simp [hf])⟩

theorem Inv.replying_opBlk (h : s.Inv) (hf : s.fsm = .replying) : s.opBlk = false := by
  obtain ⟨-, -, -, -, -, hrecv⟩ := h
  obtain ⟨-, -, -, -, hreply⟩ := hrecv (Or.inr hf)
  exact (hreply hf).1

/-! ### The append -/

theorem length_nextPayload {o : Nat} (hw : s.nextWindow.length = s.windowSize) (h : s.nextScan = .data o) :
    (slice s.nextWindow (o + 3) s.payloadSize).length = s.payloadSize := by
  obtain ⟨-, ho, -⟩ := (sync_eq_data_iff o).mp h
  have hwin : s.nextWindow.length = 2 * (s.payloadSize + 4) := hw
  exact length_slice (by omega)

/-- The payload stands in OBUF behind the bytes appended before, and nothing else of OBUF has changed (R124). -/
theorem recvAppend_obuf {o : Nat} (hm : Memory.wf s.obuf = true) (hw : s.nextWindow.length = s.windowSize)
    (h : s.nextScan = .data o) (hb : s.work.bytesDone.toNat + s.payloadSize ≤ 512) :
    (∀ i, i < s.payloadSize → Memory.read (s.passed.recvAppend o).obuf (s.work.bytesDone.toNat + i) =
      byteAt s.nextWindow (o + 3 + i)) ∧
    (∀ x, x < s.work.bytesDone.toNat ∨ s.work.bytesDone.toNat + s.payloadSize ≤ x →
      Memory.read (s.passed.recvAppend o).obuf x = Memory.read s.obuf x) := by
  have hlen := length_nextPayload hw h
  have heq : (s.passed.recvAppend o).obuf =
      Memory.writeBytes s.obuf s.work.bytesDone.toNat (slice s.nextWindow (o + 3) s.payloadSize) := by
    rw [passed_eq]
    rfl
  rw [heq]
  refine ⟨fun i hi => ?_, fun x hx => ?_⟩
  · rw [Memory.read_writeBytes_inside hm (by omega) (by omega)]
    exact byteAt_slice hi
  · exact Memory.read_writeBytes_outside (by omega) (by omega)

theorem tickReceiving_data_obuf {o : Nat} (h : s.nextScan = .data o) :
    s.tickReceiving.obuf = (s.passed.recvAppend o).obuf := by
  cases hb : s.opBlk with
  | true => rw [tickReceiving_data_blocking h hb, recvHead_obuf]
  | false => rw [tickReceiving_data_nonBlocking h hb]; rfl

/-! ### A reply -/

/-- A non-blocking command has sent its reply and is at the head of the loop (R125). -/
theorem tickReplying_eq (hb : s.opBlk = false) : s.tickReplying = recvHead { s with
    trace := s.trace ++ (s.txf.drop s.part).map .tx, work := { s.work with k := s.work.k + 1 } } := by
  rw [tickReplying, transmit_eq, recvNext_nonBlocking]
  · rfl
  · exact hb

/-- The head of the loop, as the claims say it. -/
theorem recvHead_cases (s : State) :
    if s.LoopOver then s.recvHead = { s with
      fsm := .idle, line := [], part := 0, resValid := true
      res := { val := s.work.bytesDone, a := s.prog.la, b := s.prog.lb, c := s.prog.lc, fnd := s.prog.fnd } }
    else s.recvHead = { s with fsm := .receiving, part := 0 } := by
  by_cases h : s.LoopOver
  · rw [if_pos h]
    exact recvHead_done ((recvDone_iff s).mpr h)
  · rw [if_neg h]
    exact recvHead_more (Bool.eq_false_iff.mpr fun hd => h ((recvDone_iff s).mp hd))

end Sys2Proof.Machine.State

namespace Sys2Proof.Machine

open State

/-- Settles O45: with nothing to receive the loop has ended where it begins, and a completed command runs no further. -/
theorem recvOfNothingCompletes : Obligations.RecvOfNothingCompletes := by
  intro s blk ako
  have hdone : (s.latchRecv 0 blk ako).loopStart.recvDone = true := by
    refine (recvDone_iff _).mpr ?_
    unfold LoopOver
    split
    · exact Nat.le_refl 0
    · exact Nat.le_refl 0
  rw [exec_recv, startRecv_eq, recvHead_done hdone, runCommand, run_idle _ _ rfl, loopStart_eq]
  rfl

/-- Settles O55: each answer of the scan, and the reply, by its own law. -/
theorem recvControlTransfers : Obligations.RecvControlTransfers := by
  intro s hi hf hq hs bytes w captured counted head
  have hbusy : s.fsm ≠ .idle := by rcases hf with hf | hf <;> simp [hf]
  have hcaptured {t : State} (hd : t.draws = s.passed.draws) (ho : t.work.o = s.passed.work.o)
      (hc : t.work.crc = s.passed.work.crc) : captured t = s.passed := by
    rw [passed_eq, ← hd, ← ho, ← hc]
    rfl
  refine ⟨s.tick, step_tick hbusy hq hs, fun hf hr => ?_, fun o e hf hr => ?_, fun o hf hr => ?_, fun hf => ?_⟩
  · rw [tick_receiving hf, tickReceiving_none hr]
    have hwork := recvNext_work s.passed
    have hnext : s.passed.recvNext = (counted s.passed).recvHead := by
      unfold recvNext counted
      split <;> rfl
    rw [hcaptured (recvNext_draws _) (by rw [hwork]) (by rw [hwork]), hnext]
    exact recvHead_cases (counted s.passed)
  · rw [tick_receiving hf, tickReceiving_ack hr, hcaptured rfl rfl rfl]
    rfl
  · intro src sum appended
    obtain ⟨hreceives, hdue, hpart⟩ := hi.receiving hf
    obtain ⟨-, hobuf, -, hwin⟩ := hreceives.buf
    have hcount := hreceives.bytesDone_lt hdue
    have hP : s.payloadSize ≤ 251 := s.par.payloadSize_le
    obtain ⟨hin, hout⟩ := recvAppend_obuf hobuf (length_nextWindow hwin hpart.le) hr (by omega)
    rw [← tickReceiving_data_obuf hr, ← tick_receiving hf] at hin hout
    refine ⟨hin, hout, fun hb => ?_, fun hb => ?_⟩
    · have htick : s.tick = (s.passed.recvAppend o).recvHead := by
        rw [tick_receiving hf, tickReceiving_data_blocking hr hb]
      have happended : appended = s.passed.recvAppend o := by
        have hscan : s.tick.work = (s.passed.recvAppend o).work := by rw [htick, recvHead_work]
        simp only [appended]
        rw [hcaptured (by rw [htick]; exact recvHead_draws _) (by rw [hscan]; rfl) (by rw [hscan]; rfl), htick,
          recvHead_obuf, passed_eq]
        rfl
      rw [happended, htick]
      exact recvHead_cases _
    · have htick : s.tick = (s.passed.recvAppend o).buildReply o := by
        rw [tick_receiving hf, tickReceiving_data_nonBlocking hr hb]
      simp only [appended, captured, htick]
      rw [passed_eq]
      rfl
  · have hb : s.opBlk = false := hi.replying_opBlk hf
    rw [tick_replying hf, tickReplying_eq hb]
    exact recvHead_cases _

end Sys2Proof.Machine
end

section
/-! RECVACK in RECV's words (44_recv.md R127): every transfer of RECV reads its size and its two modes of the latched
word and nothing else of it, so a command whose word reads the same does the same. -/

namespace Sys2Proof.Machine.State

variable {s : State} {c : Latches}

/-- The latches `c` give RECV the size and the modes that the latched word gives it. -/
structure ReadsAs (s : State) (c : Latches) : Prop where
  size : opSize { s with cmd := c } = s.opSize
  blk : opBlk { s with cmd := c } = s.opBlk
  ako : opAko { s with cmd := c } = s.opAko

theorem ReadsAs.of_eq {t : State} (h : s.ReadsAs c) (hc : t.cmd = s.cmd) (hp : t.par = s.par) : t.ReadsAs c where
  size :=
    (opSize_congr (s := { s with cmd := c }) (t := { t with cmd := c }) rfl hp).trans
      (h.size.trans (opSize_congr hc hp).symm)
  blk := h.blk.trans (opBlk_congr hc).symm
  ako := h.ako.trans (opAko_congr hc).symm

theorem ReadsAs.of_sameOutside {t : State} (h : s.ReadsAs c) (ht : SameOutside s t) : t.ReadsAs c :=
  h.of_eq ht.cmd ht.par

/-- Through RECVACK's latches is read what RECV n=PAYLOAD_SIZE blk=1 ako=1 says (R127). -/
theorem readsAs_recvack (h : s.cmd.op = 0xC) (a b : Byte) :
    s.ReadsAs { op := 0xB, blk := true, ako := true, a := a, b := b, n := BitVec.ofNat 8 s.payloadSize } := by
  have hack : s.isRecvack = true := decide_eq_true h
  have hP : s.payloadSize ≤ 251 := s.par.payloadSize_le
  have hn : (BitVec.ofNat 8 s.payloadSize).toNat = s.payloadSize := by
    rw [BitVec.toNat_ofNat, Nat.mod_eq_of_lt (by omega)]
  constructor
  · rw [opSize_recv rfl, opSize, hack]
    exact hn
  · rw [opBlk_recv rfl, opBlk, hack]
    rfl
  · rw [opAko_recv rfl, opAko, hack]
    rfl

/-! ### The loop -/

theorem recvHead_readsAs (h : s.ReadsAs c) : recvHead { s with cmd := c } = { s.recvHead with cmd := c } := by
  have hd : recvDone { s with cmd := c } = s.recvDone := by
    unfold recvDone
    rw [h.blk, h.size]
  unfold recvHead
  rw [hd]
  split <;> rfl

theorem startRecv_readsAs (h : s.ReadsAs c) : startRecv { s with cmd := c } = { s.startRecv with cmd := c } := by
  have hstart : loopStart { s with cmd := c } = { s.loopStart with cmd := c } := by
    show clearRecv ({ s.dropLine with cmd := c }.setPkts
      (BitVec.ofNat 8 (packetCount (opSize { s with cmd := c }) s.payloadSize))) = _
    rw [h.size]
    rfl
  rw [startRecv_eq, hstart]
  exact recvHead_readsAs (h.of_eq (t := s.loopStart) rfl rfl)

theorem recvNext_readsAs (h : s.ReadsAs c) : recvNext { s with cmd := c } = { s.recvNext with cmd := c } := by
  unfold recvNext
  rw [h.blk]
  split
  · exact recvHead_readsAs h
  · exact recvHead_readsAs (h.of_eq (t := s.setK (s.work.k + 1)) rfl rfl)

theorem recvCase_readsAs (h : s.ReadsAs c) (r : SyncResult) :
    recvCase { s with cmd := c } r = { s.recvCase r with cmd := c } := by
  cases r with
  | none => exact recvNext_readsAs h
  | ack o e => rfl
  | data o =>
    have happend : (s.recvAppend o).ReadsAs c := h.of_eq rfl rfl
    show afterAppend { s.recvAppend o with cmd := c } o = { (s.recvAppend o).afterAppend o with cmd := c }
    unfold afterAppend
    rw [happend.blk]
    split
    · exact recvHead_readsAs happend
    · rfl

theorem tickReceiving_readsAs (h : s.ReadsAs c) :
    tickReceiving { s with cmd := c } = { s.tickReceiving with cmd := c } := by
  have hpassed : passed { s with cmd := c } = { s.passed with cmd := c } := by
    unfold passed
    rw [capture_latches, h.ako]
    rfl
  have hscan : nextScan { s with cmd := c } = s.nextScan := by
    unfold nextScan
    rw [h.ako]
    rfl
  rw [tickReceiving_eq, tickReceiving_eq, hpassed, hscan]
  exact recvCase_readsAs (h.of_sameOutside (passed_sameOutside s)) _

theorem tickReplying_readsAs (h : s.ReadsAs c) :
    tickReplying { s with cmd := c } = { s.tickReplying with cmd := c } := by
  unfold tickReplying
  rw [transmit_latches]
  exact recvNext_readsAs (h.of_sameOutside (transmit_sameOutside s))

/-- A transfer of RECV, or none in Idle. -/
theorem tick_readsAs (h : s.ReadsAs c) (hf : s.fsm.recvSide ∨ s.fsm = .idle) :
    tick { s with cmd := c } = { s.tick with cmd := c } := by
  rcases hf with (hf | hf) | hf
  · rw [tick_receiving hf, tick_receiving (s := { s with cmd := c }) hf]
    exact tickReceiving_readsAs h
  · rw [tick_replying hf, tick_replying (s := { s with cmd := c }) hf]
    exact tickReplying_readsAs h
  · rw [tick_idle hf, tick_idle (s := { s with cmd := c }) hf]

theorem tick_recvSide_or_idle (h : s.fsm.recvSide ∨ s.fsm = .idle) : s.tick.fsm.recvSide ∨ s.tick.fsm = .idle := by
  rcases h with h | h
  · exact tick_recvSide h
  · rw [tick_idle h]
    exact Or.inr h

theorem tick_sameOutside_of_recvSide (h : s.fsm.recvSide ∨ s.fsm = .idle) : SameOutside s s.tick :=
  tick_sameOutside s fun hu => by simp [hu, Fsm.recvSide] at h

theorem run_readsAs (n : Nat) (h : s.ReadsAs c) (hf : s.fsm.recvSide ∨ s.fsm = .idle) :
    run n { s with cmd := c } = { run n s with cmd := c } := by
  induction n generalizing s with
  | zero => rfl
  | succ n ih =>
    have hawaits : awaitsLink { s with cmd := c } = s.awaitsLink := by
      unfold awaitsLink
      rw [h.blk]
      rfl
    unfold run
    rw [hawaits, tick_readsAs h hf]
    dsimp only
    split
    · rfl
    · exact ih (h.of_sameOutside (tick_sameOutside_of_recvSide hf)) (tick_recvSide_or_idle hf)

theorem startRecv_fsm (s : State) : s.startRecv.fsm.recvSide ∨ s.startRecv.fsm = .idle :=
  (recvHead_fsm s.loopStart).imp_left Or.inl

theorem runRecv_readsAs (h : s.ReadsAs c) :
    runCommand (startRecv { s with cmd := c }) = { s.startRecv.runCommand with cmd := c } := by
  rw [startRecv_readsAs h]
  exact run_readsAs _ (h.of_sameOutside (startRecv_sameOutside s)) (startRecv_fsm s)

/-! ### A step of the running command -/

theorem transfer_readsAs (h : s.ReadsAs c) (hf : s.fsm.recvSide) :
    transfer { s with cmd := c } = { s.transfer with cmd := c } := by
  unfold transfer
  show (if s.stalled = true then _ else _) = _
  split
  · rfl
  · exact tick_readsAs h (Or.inl hf)

theorem firstAccesses_receiving (hf : s.fsm = .receiving) (m : Nat) : s.firstAccesses m = s.receivingAccesses m := by
  unfold firstAccesses
  rw [hf]

theorem firstAccesses_replying (hf : s.fsm = .replying) (m : Nat) :
    s.firstAccesses m = s.sendBytes ((s.txf.drop s.part).take m) := by
  unfold firstAccesses
  rw [hf]

/-- What reset cuts short, it cuts short alike. -/
theorem resetAfter_readsAs (m : Nat) (h : s.ReadsAs c) (hf : s.fsm.recvSide) :
    resetAfter { s with cmd := c } m = s.resetAfter m := by
  have hfirst (m : Nat) : firstAccesses { s with cmd := c } m = { s.firstAccesses m with cmd := c } := by
    rcases hf with hf | hf
    · rw [firstAccesses_receiving hf, firstAccesses_receiving (s := { s with cmd := c }) hf]
      unfold receivingAccesses
      rw [captureAccesses_latches, capture_latches, h.ako]
      show (if m ≤ s.windowRest then _ else _) = _
      split <;> rfl
    · rw [firstAccesses_replying hf, firstAccesses_replying (s := { s with cmd := c }) hf]
      exact sendBytes_latches s c _
  show afterReset (firstAccesses { s with cmd := c } (if s.stalled then 0 else m)) = _
  rw [hfirst]
  rfl

end Sys2Proof.Machine.State

namespace Sys2Proof.Machine

open State

/-- The step of a running RECV or RECVACK whose word is read the same. -/
theorem step_readsAs {s : State} {c : Latches} (h : s.ReadsAs c) (hf : s.fsm.recvSide) :
    ∃ t u : State, step s = .next t ∧ step { s with cmd := c } = .next u ∧ { t with cmd := u.cmd } = u := by
  have hbusy : s.fsm ≠ .idle := by rcases hf with hf | hf <;> simp [hf]
  by_cases hq : s.quiet = true
  · exact ⟨_, _, step_transfer hbusy hq, step_transfer (s := { s with cmd := c }) hbusy hq,
      eq_latches_of (transfer_readsAs h hf)⟩
  rcases inputs_of_not_quiet hq with ⟨m, rest, hi⟩ | ⟨bytes, rest, hi⟩ | ⟨m, rest, hi⟩ | ⟨rest, hi⟩ | ⟨rest, hi⟩
  · have hreset := resetAfter_readsAs (s := { s with inputs := rest }) m (h.of_eq rfl rfl) hf
    exact ⟨_, _, step_reset hi, (step_reset (s := { s with cmd := c }) hi).trans (congrArg _ hreset), rfl⟩
  · exact ⟨_, _, step_line hi, step_line (s := { s with cmd := c }) hi, rfl⟩
  · exact ⟨_, _, step_stall hi, step_stall (s := { s with cmd := c }) hi,
      eq_latches_of (fallSilent_latches { s with inputs := rest } c m)⟩
  · exact ⟨_, _, step_answer hi, step_answer (s := { s with cmd := c }) hi, rfl⟩
  · exact ⟨_, _, step_wait hi, step_wait (s := { s with cmd := c }) hi,
      eq_latches_of (transfer_readsAs (s := { s with inputs := rest }) (h.of_eq rfl rfl) hf)⟩

/-- Settles O52: RECVACK's word is read as that RECV's, where the command is accepted and in every step of it. -/
theorem recvackIsAckOnlyRecv : Obligations.RecvackIsAckOnlyRecv := by
  refine ⟨fun s => ?_, fun s _ hf hop => step_readsAs (readsAs_recvack hop s.cmd.a s.cmd.b) hf⟩
  have hrun := runRecv_readsAs (readsAs_recvack (s := s.latchOp 0xC) rfl s.cmd.a s.cmd.b)
  exact ⟨_, _, rfl, exec_recv s (BitVec.ofNat 8 s.payloadSize) true true, eq_latches_of hrun⟩

end Sys2Proof.Machine
end

section
/-! A run of RECV or RECVACK (44_recv.md R120 to R128, 20_memory.md R43), said once of each of its transfers: what it
counts and where it stands (`Collects`), and what it leaves unchanged (`RecvKeeps`). -/

namespace Sys2Proof.Machine

/-- A whole number of packets that reaches the size, and was below it one packet before, is the packet count's. -/
theorem eq_packetCount_mul {b size p : Nat} (hp : 1 ≤ p) (hwhole : b % p = 0) (hreach : size ≤ b)
    (hlast : b < size + p) : b = packetCount size p * p := by
  obtain ⟨hsize, hleast⟩ := packetCountIsCeiling size p hp
  obtain ⟨q, rfl⟩ : ∃ q, b = q * p := ⟨b / p, (Nat.div_mul_cancel (Nat.dvd_of_mod_eq_zero hwhole)).symm⟩
  have hle : packetCount size p ≤ q := hleast q hreach
  have hge : q < packetCount size p + 1 := by
    refine Nat.lt_of_mul_lt_mul_right (a := p) ?_
    rw [Nat.succ_mul]
    omega
  rw [Nat.le_antisymm hle (Nat.le_of_lt_succ hge)]

namespace State

variable {s t : State}

/-! ### What a run counts -/

/-- Whole packets are counted, and a match has been noted exactly if there is one (R121, R124, R128). -/
structure Gathers (s : State) : Prop where
  pkts : s.work.pkts.toNat = packetCount s.opSize s.payloadSize
  whole : s.work.bytesDone.toNat % s.payloadSize = 0
  found : s.prog.fnd = true ↔ s.work.bytesDone.toNat ≠ 0

/-- A pass has ended: a blocking command was below its size before it, and a non-blocking one has made another of its
passes, with at most one packet in each (R122, R123). -/
structure PassEnded (s : State) : Prop where
  blocking : s.opBlk = true → s.work.bytesDone.toNat < s.opSize + s.payloadSize
  nonBlocking : s.opBlk = false →
    s.work.k.toNat < s.work.pkts.toNat ∧ s.work.bytesDone.toNat ≤ (s.work.k.toNat + 1) * s.payloadSize

/-- The head of the loop, where a non-blocking command has counted the pass that ended. -/
structure HeadReached (s : State) : Prop where
  blocking : s.opBlk = true → s.work.bytesDone.toNat < s.opSize + s.payloadSize
  nonBlocking : s.opBlk = false →
    s.work.k.toNat ≤ s.work.pkts.toNat ∧ s.work.bytesDone.toNat ≤ s.work.k.toNat * s.payloadSize

/-- A completion: no TMO, no ILL, and in payload mode the bytes appended and the last match (R128). -/
structure RecvCompleted (s : State) : Prop where
  valid : s.resValid = true
  tmo : s.res.tmo = false
  ill : s.res.ill = false
  result : s.opAko = false → s.res = s.recvResult
  blocking : s.opAko = false → s.opBlk = true →
    s.work.bytesDone.toNat = packetCount s.opSize s.payloadSize * s.payloadSize
  nonBlocking : s.opAko = false → s.opBlk = false →
    s.work.bytesDone.toNat ≤ packetCount s.opSize s.payloadSize * s.payloadSize

/-- Where a run of RECV or RECVACK stands before each of its transfers, and when it has completed. -/
structure Collects (s : State) : Prop where
  gathers : s.Gathers
  part : s.part = 0
  side : s.fsm.recvSide ∨ s.fsm = .idle
  receiving : s.fsm = .receiving → s.PassDue
  replying : s.fsm = .replying → s.opBlk = false ∧ s.opAko = false ∧ s.PassEnded
  completed : s.fsm = .idle → s.RecvCompleted

theorem passDue_iff (s : State) : s.PassDue ↔
    (s.opBlk = true → s.work.bytesDone.toNat < s.opSize) ∧
    (s.opBlk = false → s.work.k.toNat < s.work.pkts.toNat ∧
      s.work.bytesDone.toNat ≤ s.work.k.toNat * s.payloadSize) := by
  rw [PassDue, ite_prop_iff_and, Bool.not_eq_true]

/-- Where the loop goes on, another pass is due. -/
theorem HeadReached.passDue (h : s.HeadReached) (hmore : s.recvDone = false) : s.PassDue := by
  refine (passDue_iff s).mpr ⟨fun hb => ?_, fun hb => ⟨?_, (h.nonBlocking hb).2⟩⟩
  · simpa [recvDone, hb] using hmore
  · simpa [recvDone, hb] using hmore

theorem PassDue.ended (h : s.PassDue) : s.PassEnded := by
  obtain ⟨hblocking, hnonBlocking⟩ := (passDue_iff s).mp h
  refine ⟨fun hb => Nat.lt_add_right _ (hblocking hb), fun hb => ?_⟩
  obtain ⟨hk, hcount⟩ := hnonBlocking hb
  exact ⟨hk, hcount.trans (Nat.mul_le_mul_right _ (Nat.le_succ _))⟩

/-- An append ends the pass that was due. -/
theorem PassDue.append (h : s.PassDue) (o : Nat) : (s.recvAppend o).PassEnded := by
  have hcount := recvAppend_bytesDone o h
  obtain ⟨hblocking, hnonBlocking⟩ := (passDue_iff s).mp h
  refine ⟨fun hb => ?_, fun hb => ?_⟩
  · rw [hcount]
    exact Nat.add_lt_add_right (hblocking hb) _
  · obtain ⟨hk, hle⟩ := hnonBlocking hb
    rw [hcount, Nat.succ_mul]
    exact ⟨hk, Nat.add_le_add_right hle _⟩

theorem Gathers.append (h : s.Gathers) (hdue : s.PassDue) (o : Nat) : (s.recvAppend o).Gathers := by
  have hcount := recvAppend_bytesDone o hdue
  have hP : 1 ≤ s.payloadSize := s.par.payloadSize_pos
  refine ⟨h.pkts, ?_, iff_of_true rfl (by omega)⟩
  rw [hcount]
  exact (Nat.add_mod_right _ _).trans h.whole

/-! ### Each transfer keeps the count -/

theorem recvHead_collects (h : s.Gathers) (hhead : s.HeadReached) : s.recvHead.Collects := by
  obtain ⟨hpkts, hwhole, hfound⟩ := h
  cases hd : s.recvDone with
  | true =>
    rw [recvHead_done hd]
    refine ⟨⟨hpkts, hwhole, hfound⟩, rfl, Or.inr rfl, nofun, nofun,
      fun _ => ⟨rfl, rfl, rfl, fun _ => rfl, fun _ hb => ?_, fun _ hb => ?_⟩⟩
    · have hb : s.opBlk = true := hb
      have hreach : s.opSize ≤ s.work.bytesDone.toNat := by simpa [recvDone, hb] using hd
      exact eq_packetCount_mul s.par.payloadSize_pos hwhole hreach (hhead.blocking hb)
    · obtain ⟨hk, hle⟩ := hhead.nonBlocking hb
      exact hle.trans (Nat.mul_le_mul_right _ (hpkts ▸ hk))
  | false =>
    have hdue := hhead.passDue hd
    rw [recvHead_more hd]
    exact ⟨⟨hpkts, hwhole, hfound⟩, rfl, Or.inl (Or.inl rfl), fun _ => hdue, nofun, nofun⟩

/-- A non-blocking command counts the pass. -/
theorem PassEnded.counted (h : s.PassEnded) (hb : s.opBlk = false) : (s.setK (s.work.k + 1)).HeadReached := by
  obtain ⟨hk, hcount⟩ := h.nonBlocking hb
  have hsucc : (s.work.k + 1).toNat = s.work.k.toNat + 1 := by bv_omega
  refine ⟨fun hb' => absurd (hb.symm.trans hb') (by decide), fun _ => ?_⟩
  show (s.work.k + 1).toNat ≤ s.work.pkts.toNat ∧ s.work.bytesDone.toNat ≤ (s.work.k + 1).toNat * s.payloadSize
  rw [hsucc]
  exact ⟨hk, hcount⟩

theorem PassEnded.headReached (h : s.PassEnded) (hb : s.opBlk = true) : s.HeadReached :=
  ⟨h.blocking, fun hb' => absurd (hb.symm.trans hb') (by decide)⟩

theorem recvNext_collects (h : s.Gathers) (hend : s.PassEnded) : s.recvNext.Collects := by
  cases hb : s.opBlk with
  | true =>
    rw [recvNext_blocking hb]
    exact recvHead_collects h (hend.headReached hb)
  | false =>
    rw [recvNext_nonBlocking hb]
    exact recvHead_collects ⟨h.pkts, h.whole, h.found⟩ (hend.counted hb)

/-- A reply is due at the end of a pass of a non-blocking command in payload mode. -/
theorem buildReply_collects (h : s.Gathers) (hend : s.PassEnded) (hb : s.opBlk = false) (ha : s.opAko = false)
    (o : Nat) : (s.buildReply o).Collects :=
  ⟨⟨h.pkts, h.whole, h.found⟩, rfl, Or.inl (Or.inr rfl), nofun, fun _ => ⟨hb, ha, hend.blocking, hend.nonBlocking⟩, nofun⟩

theorem tickReceiving_collects (h : s.Gathers) (hdue : s.PassDue) : s.tickReceiving.Collects := by
  have hgathers : s.passed.Gathers := by
    rw [passed_eq]
    exact ⟨h.pkts, h.whole, h.found⟩
  have hdue' : s.passed.PassDue := by
    rw [passed_eq]
    exact hdue
  cases hr : s.nextScan with
  | none =>
    rw [tickReceiving_none hr]
    exact recvNext_collects hgathers hdue'.ended
  | ack o e =>
    have hpayload : s.tickReceiving.opAko = true :=
      (opAko_congr (tickReceiving_sameOutside s).cmd).trans (opAko_of_ack hr)
    rw [tickReceiving_ack hr] at hpayload ⊢
    have hnot (ha : s.passed.opAko = false) : False := absurd (ha.symm.trans hpayload) (by decide)
    exact ⟨⟨hgathers.pkts, hgathers.whole, hgathers.found⟩, rfl, Or.inr rfl, nofun, nofun,
      fun _ => ⟨rfl, rfl, rfl, fun ha => (hnot ha).elim, fun ha => (hnot ha).elim, fun ha => (hnot ha).elim⟩⟩
  | data o =>
    have happended := hgathers.append hdue' o
    have hended := hdue'.append o
    have hb' : (s.passed.recvAppend o).opBlk = s.opBlk := opBlk_congr (passed_sameOutside s).cmd
    have ha' : (s.passed.recvAppend o).opAko = false := (opAko_congr (passed_sameOutside s).cmd).trans (opAko_of_data hr)
    cases hb : s.opBlk with
    | true =>
      rw [tickReceiving_data_blocking hr hb]
      exact recvHead_collects happended (hended.headReached (hb'.trans hb))
    | false =>
      rw [tickReceiving_data_nonBlocking hr hb]
      exact buildReply_collects happended hended (hb'.trans hb) ha' o

theorem tickReplying_collects (h : s.Gathers) (hend : s.PassEnded) : s.tickReplying.Collects := by
  rw [tickReplying, transmit_eq]
  exact recvNext_collects ⟨h.pkts, h.whole, h.found⟩ ⟨hend.blocking, hend.nonBlocking⟩

theorem Collects.tick (h : s.Collects) : s.tick.Collects := by
  rcases h.side with (hf | hf) | hf
  · rw [tick_receiving hf]
    exact tickReceiving_collects h.gathers (h.receiving hf)
  · obtain ⟨-, -, hend⟩ := h.replying hf
    rw [tick_replying hf]
    exact tickReplying_collects h.gathers hend
  · rwa [tick_idle hf]

theorem startRecv_collects (s : State) : s.startRecv.Collects := by
  have hgathers : s.loopStart.Gathers := ⟨s.pkts_toNat, Nat.zero_mod _, iff_of_false nofun (· rfl)⟩
  exact recvHead_collects hgathers
    ⟨fun _ => Nat.add_pos_right _ s.par.payloadSize_pos, fun _ => ⟨Nat.zero_le _, Nat.zero_le _⟩⟩

/-! ### What a run leaves unchanged -/

/-- What no transfer of RECV changes besides `SameOutside`: SEND's variables, OBUF from the count on, OBUF and TXF in
Ack-only mode, and in blocking mode TXF, with no byte transmitted (R120, R125, R126). -/
structure RecvKeeps (s t : State) : Prop where
  attempts : t.work.attempts = s.work.attempts
  resend : t.prog.resend = s.prog.resend
  txf : s.opAko = true ∨ s.opBlk = true → t.txf = s.txf
  ackOnly : s.opAko = true → t.obuf = s.obuf
  trace : ∃ new, t.trace = s.trace ++ new ∧ (s.opBlk = true → ∀ b, LinkEvent.tx b ∉ new)
  count : s.work.bytesDone.toNat ≤ t.work.bytesDone.toNat
  obuf : ∀ x, t.work.bytesDone.toNat ≤ x → Memory.read t.obuf x = Memory.read s.obuf x

theorem RecvKeeps.refl (s : State) : RecvKeeps s s :=
  ⟨rfl, rfl, fun _ => rfl, fun _ => rfl, ⟨[], by simp⟩, Nat.le_refl _, fun _ _ => rfl⟩

theorem RecvKeeps.trans {u : State} (h : RecvKeeps s t) (h' : RecvKeeps t u) (hc : t.cmd = s.cmd) :
    RecvKeeps s u := by
  obtain ⟨new, hnew, hrx⟩ := h.trace
  obtain ⟨new', hnew', hrx'⟩ := h'.trace
  have hb : t.opBlk = s.opBlk := opBlk_congr hc
  have ha : t.opAko = s.opAko := opAko_congr hc
  exact {
    attempts := h'.attempts.trans h.attempts
    resend := h'.resend.trans h.resend
    txf := fun hm => (h'.txf (by rwa [ha, hb])).trans (h.txf hm)
    ackOnly := fun hm => (h'.ackOnly (ha.trans hm)).trans (h.ackOnly hm)
    trace := ⟨new ++ new', by rw [hnew', hnew, List.append_assoc], fun hm b hmem =>
      (List.mem_append.mp hmem).elim (hrx hm b) (hrx' (hb.trans hm) b)⟩
    count := h.count.trans h'.count
    obuf := fun x hx => (h'.obuf x hx).trans (h.obuf x (h'.count.trans hx)) }

theorem recvHead_recvKeeps (s : State) : RecvKeeps s s.recvHead := by
  unfold recvHead
  split <;>
    exact ⟨rfl, rfl, fun _ => rfl, fun _ => rfl, ⟨[], (List.append_nil _).symm, fun _ _ => List.not_mem_nil⟩,
      Nat.le_refl _, fun _ _ => rfl⟩

theorem recvNext_recvKeeps (s : State) : RecvKeeps s s.recvNext := by
  cases hb : s.opBlk with
  | true =>
    rw [recvNext_blocking hb]
    exact recvHead_recvKeeps s
  | false =>
    rw [recvNext_nonBlocking hb]
    obtain ⟨ha, hr, htxf, hack, htrace, hcount, hobuf⟩ := recvHead_recvKeeps (s.setK (s.work.k + 1))
    exact ⟨ha, hr, htxf, hack, htrace, hcount, hobuf⟩

theorem passed_recvKeeps (s : State) : RecvKeeps s s.passed := by
  rw [passed_eq]
  exact ⟨rfl, rfl, fun _ => rfl, fun _ => rfl, ⟨_, rfl, fun _ b hb => by simp at hb⟩, Nat.le_refl _, fun _ _ => rfl⟩

/-- Where a pass is due, fewer bytes than the size are in OBUF. -/
theorem Gathers.bytesDone_lt (h : s.Gathers) (hdue : s.PassDue) : s.work.bytesDone.toNat < s.opSize := by
  obtain ⟨hblocking, hnonBlocking⟩ := (passDue_iff s).mp hdue
  cases hb : s.opBlk with
  | true => exact hblocking hb
  | false =>
    obtain ⟨hk, hcount⟩ := hnonBlocking hb
    exact hcount.trans_lt (mul_lt_of_lt_packetCount (h.pkts ▸ hk))

/-- An append stays below the new count. -/
theorem recvAppend_recvKeeps (o : Nat) (h : s.Gathers) (hdue : s.PassDue) (ha : s.opAko = false) :
    RecvKeeps s (s.recvAppend o) := by
  have hbase := h.bytesDone_lt hdue
  have hsize := s.opSize_le
  have hcount := recvAppend_bytesDone o hdue
  have hP : s.payloadSize ≤ 251 := s.par.payloadSize_le
  have hlen : (slice s.win (o + 3) s.payloadSize).length ≤ s.payloadSize := length_slice_le _ _ _
  refine ⟨rfl, rfl, fun _ => rfl, fun ha' => absurd (ha.symm.trans ha') (by decide),
    ⟨[], (List.append_nil _).symm, fun _ _ => List.not_mem_nil⟩, by omega, fun x hx => ?_⟩
  exact Memory.read_writeBytes_outside (by omega) (Or.inr (by omega))

/-- Only a non-blocking command in payload mode builds a reply. -/
theorem buildReply_recvKeeps (o : Nat) (ha : s.opAko = false) (hb : s.opBlk = false) :
    RecvKeeps s (s.buildReply o) :=
  ⟨rfl, rfl, fun hm => by simp [ha, hb] at hm, fun _ => rfl,
    ⟨[], (List.append_nil _).symm, fun _ _ => List.not_mem_nil⟩, Nat.le_refl _, fun _ _ => rfl⟩

theorem tickReceiving_recvKeeps (h : s.Gathers) (hdue : s.PassDue) : RecvKeeps s s.tickReceiving := by
  have hpassed := passed_recvKeeps s
  have hcmd := (passed_sameOutside s).cmd
  cases hr : s.nextScan with
  | none =>
    rw [tickReceiving_none hr]
    exact hpassed.trans (recvNext_recvKeeps _) hcmd
  | ack o e =>
    obtain ⟨ha, hre, htxf, hack, htrace, hcount, hobuf⟩ := hpassed
    rw [tickReceiving_ack hr]
    exact ⟨ha, hre, htxf, hack, htrace, hcount, hobuf⟩
  | data o =>
    have hgathers : s.passed.Gathers := by
      rw [passed_eq]
      exact ⟨h.pkts, h.whole, h.found⟩
    have hdue' : s.passed.PassDue := by
      rw [passed_eq]
      exact hdue
    have ha : s.passed.opAko = false := (opAko_congr hcmd).trans (opAko_of_data hr)
    have happend := hpassed.trans (recvAppend_recvKeeps o hgathers hdue' ha) hcmd
    cases hb : s.opBlk with
    | true =>
      rw [tickReceiving_data_blocking hr hb]
      exact happend.trans (recvHead_recvKeeps _) hcmd
    | false =>
      rw [tickReceiving_data_nonBlocking hr hb]
      exact happend.trans (buildReply_recvKeeps (s := s.passed.recvAppend o) o ha ((passed_opBlk s).trans hb)) hcmd

theorem tickReplying_recvKeeps (hb : s.opBlk = false) : RecvKeeps s s.tickReplying := by
  obtain ⟨ha, hr, htxf, hack, ⟨new, htrace, -⟩, hcount, hobuf⟩ := recvHead_recvKeeps { s with
    trace := s.trace ++ (s.txf.drop s.part).map .tx, work := { s.work with k := s.work.k + 1 } }
  rw [tickReplying_eq hb]
  exact ⟨ha, hr, htxf, hack, ⟨_, htrace.trans (List.append_assoc _ _ _), fun hb' => by simp [hb] at hb'⟩, hcount,
    hobuf⟩

theorem Collects.tick_recvKeeps (h : s.Collects) : RecvKeeps s s.tick := by
  rcases h.side with (hf | hf) | hf
  · rw [tick_receiving hf]
    exact tickReceiving_recvKeeps h.gathers (h.receiving hf)
  · rw [tick_replying hf]
    exact tickReplying_recvKeeps (h.replying hf).1
  · rw [tick_idle hf]
    exact .refl s

/-! ### A run, from the beginning of the command -/

/-- What a RECV or RECVACK has done since it was latched, however far it has run. -/
structure RecvRun (s t : State) : Prop where
  collects : t.Collects
  outside : SameOutside s t
  keeps : RecvKeeps s.loopStart t

theorem startRecv_recvRun (s : State) : RecvRun s s.startRecv :=
  ⟨startRecv_collects s, startRecv_sameOutside s, recvHead_recvKeeps s.loopStart⟩

theorem RecvRun.tick (h : RecvRun s t) : RecvRun s t.tick :=
  ⟨h.collects.tick, h.outside.trans (tick_sameOutside_of_recvSide h.collects.side),
    h.keeps.trans h.collects.tick_recvKeeps h.outside.cmd⟩

theorem run_recvRun (s : State) (n : Nat) : RecvRun s (run n s.startRecv) :=
  run_induction (Q := RecvRun s) (fun _ h _ => h.tick) n (startRecv_recvRun s)

/-- A RECV changes nothing it does not use. -/
theorem RecvRun.frame (h : RecvRun s t) : t = { s with
    fsm := t.fsm, res := t.res, resValid := t.resValid, txf := t.txf, win := t.win, obuf := t.obuf
    trace := t.trace, part := 0, line := t.line, rx := t.rx, draws := t.draws
    work := { t.work with attempts := s.work.attempts }, prog := { t.prog with resend := s.prog.resend } } := by
  obtain ⟨hcfg, hcmd, hibuf, hpast, hpar, hsilent, hinputs⟩ := h.outside
  have hattempts : t.work.attempts = s.work.attempts := h.keeps.attempts
  have hresend : t.prog.resend = s.prog.resend := h.keeps.resend
  rw [← hcfg, ← hcmd, ← hibuf, ← hpast, ← hpar, ← hsilent, ← hinputs, ← hattempts, ← hresend, ← h.collects.part]

end State

open State

/-- Settles O53: no transfer of a run changes what RECV does not use. -/
theorem recvFrame : Obligations.RecvFrame := by
  intro s t i n blk ako hi _ h
  obtain ⟨c, ha, hb, hako, hrun⟩ : ∃ c : Latches, c.a = s.cmd.a ∧ c.b = s.cmd.b ∧
      (ako = true → opAko { s with cmd := c } = true) ∧ RecvRun { s with cmd := c } t := by
    rcases hi with rfl | ⟨rfl, -⟩
    · cases h
      exact ⟨(s.latchRecv n blk ako).cmd, rfl, rfl, fun hako => hako, run_recvRun (s.latchRecv n blk ako) _⟩
    · cases h
      exact ⟨(s.latchOp 0xC).cmd, rfl, rfl, fun _ => rfl, run_recvRun (s.latchOp 0xC) _⟩
  refine ⟨?_, fun h => ⟨hrun.keeps.ackOnly (hako h), hrun.keeps.txf (Or.inl (hako h))⟩, hrun.keeps.obuf⟩
  rw [← ha, ← hb, hrun.outside.cmd]
  exact hrun.frame

/-- Settles O50: a blocking run builds no reply, and the whole packets it counts reach the size with the last. -/
theorem blockingRecvNeverTransmits : Obligations.BlockingRecvNeverTransmits := by
  intro s t n ako h
  cases h
  have hrun := run_recvRun (s.latchRecv n true ako) (s.latchRecv n true ako).startRecv.runBound
  refine ⟨hrun.keeps.txf (Or.inr rfl), ?_, fun hidle hako => ?_⟩
  · obtain ⟨new, hnew, hrx⟩ := hrun.keeps.trace
    exact ⟨new, hnew, hrx rfl⟩
  · have hdone := hrun.collects.completed hidle
    have hako' := (opAko_congr hrun.outside.cmd).trans hako
    have hcount := hdone.blocking hako' (opBlk_congr hrun.outside.cmd)
    rw [opSize_congr hrun.outside.cmd hrun.outside.par, payloadSize, hrun.outside.par] at hcount
    exact (congrArg (fun r => r.val.toNat) (hdone.result hako')).trans hcount

end Sys2Proof.Machine
end

section
/-! Ending (44_recv.md R129, 70_reset_and_hazards.md R186; log entry 10): a number that every transfer of a running
command lowers, and that its run's bound covers, so a run ends at a completion or where it awaits the link. -/

namespace Sys2Proof.Machine

/-- What a control state has before it besides captures and packets: a retry is two transfers from its capture, and a
capture is none from itself. -/
def Fsm.rank : Fsm → Nat
  | .idle => 0
  | .sending => 1
  | .awaitingAck => 0
  | .acked => 1
  | .retrying => 2
  | .timedOut => 1
  | .receiving => 1
  | .replying => 0
  | .unit => 0

namespace State

variable {s t : State}

/-- The bytes heard and listed for the link to answer with. -/
def listed (s : State) : Nat := s.line.length + s.rx.length

/-- Three transfers for each byte a capture may take, and two for each packet. -/
def roundsLeft (s : State) : Nat := 3 * s.listed + 2 * (s.work.pkts.toNat - s.work.k.toNat)

/-- A bound on the transfers left before a command completes or awaits the link. -/
def transfersLeft (s : State) : Nat := s.roundsLeft + s.fsm.rank

theorem transfersLeft_eq (s : State) : s.transfersLeft = s.roundsLeft + s.fsm.rank := rfl

/-- A command begins with fewer transfers left than its run's bound (log entry 10). -/
theorem transfersLeft_le_runBound (h : s.fsm.rank ≤ 1) : s.transfersLeft ≤ s.runBound := by
  have hpkts := s.work.pkts.isLt
  rw [transfersLeft, roundsLeft, listed, runBound]
  omega

/-- A run that has as many transfers as are left ends by itself. -/
theorem run_ends {Q : State → Prop}
    (step : ∀ s : State, Q s → s.fsm ≠ .idle → s.awaitsLink = false → Q s.tick ∧ s.tick.transfersLeft < s.transfersLeft)
    (n : Nat) (h : Q s) (hn : s.transfersLeft ≤ n) :
    Q (run n s) ∧ ((run n s).fsm = .idle ∨ (run n s).awaitsLink = true) := by
  induction n generalizing s with
  | zero =>
    refine ⟨h, ?_⟩
    by_contra hgoes
    obtain ⟨hbusy, hanswered⟩ := not_or.mp hgoes
    obtain ⟨-, hlt⟩ := step s h hbusy (Bool.eq_false_iff.mpr hanswered)
    omega
  | succ n ih =>
    by_cases hstop : s.fsm = .idle ∨ s.awaitsLink = true
    · rw [run, if_pos hstop]
      exact ⟨h, hstop⟩
    · obtain ⟨hbusy, hanswered⟩ := not_or.mp hstop
      have hanswered : s.awaitsLink = false := Bool.eq_false_iff.mpr hanswered
      obtain ⟨hq, hlt⟩ := step s h hbusy hanswered
      rw [run_tick s hbusy hanswered]
      exact ih hq (by omega)

/-! ### What a capture takes -/

/-- Where a command waits for the link. -/
theorem awaitsLink_iff (s : State) : s.awaitsLink = true ↔
    s.stalled = true ∨ s.opBlk = true ∧ s.fsm.listens = true ∧ s.line = [] ∧ s.rx = [] := by
  simp only [awaitsLink, Bool.or_eq_true, Bool.and_eq_true, List.isEmpty_iff, and_assoc]

theorem listed_pos (h : s.awaitsLink = false) (hb : s.opBlk = true) (hl : s.fsm.listens = true) : 0 < s.listed := by
  refine Nat.pos_of_ne_zero fun hzero => Bool.eq_false_iff.mp h ((awaitsLink_iff s).mpr (Or.inr ⟨hb, hl, ?_⟩))
  unfold listed at hzero
  exact ⟨List.eq_nil_of_length_eq_zero (by omega), List.eq_nil_of_length_eq_zero (by omega)⟩

/-- A whole capture takes a byte, where there is one. -/
theorem capture_listed (hp : s.part = 0) :
    (s.line.drop s.windowRest).length + (s.rx.drop (s.windowRest - s.line.length)).length ≤ s.listed - 1 := by
  rw [List.length_drop, List.length_drop, windowRest, hp, windowSize_eq, listed]
  omega

/-- Without what was heard on the line no more transfers are left. -/
theorem roundsLeft_le (hl : t.line = []) (hr : t.rx = s.rx) (hp : t.work.pkts = s.work.pkts)
    (hk : t.work.k = s.work.k) : t.roundsLeft ≤ s.roundsLeft := by
  rw [roundsLeft, roundsLeft, listed, listed, hl, hr, hp, hk, List.length_nil]
  omega

theorem transfersLeft_le (hf : t.fsm.rank = 0) (hl : t.line = []) (hr : t.rx = s.rx) (hp : t.work.pkts = s.work.pkts)
    (hk : t.work.k = s.work.k) : t.transfersLeft ≤ s.roundsLeft := by
  rw [transfersLeft, hf]
  exact roundsLeft_le hl hr hp hk

/-- One packet fewer is to come. -/
theorem roundsLeft_succ (hp : t.work.pkts = s.work.pkts) (hk : t.work.k = s.work.k + 1)
    (hlt : s.work.k.toNat < s.work.pkts.toNat) (hl : t.listed ≤ s.listed) : t.roundsLeft + 2 ≤ s.roundsLeft := by
  have hsucc : (s.work.k + 1).toNat = s.work.k.toNat + 1 := by bv_omega
  rw [roundsLeft, roundsLeft, hp, hk, hsucc]
  omega

/-! ### RECV and RECVACK -/

theorem passed_roundsLeft (hp : s.part = 0) :
    s.passed.roundsLeft ≤ s.roundsLeft ∧ (0 < s.listed → s.passed.roundsLeft < s.roundsLeft) := by
  have htake := capture_listed hp
  rw [passed_eq]
  simp only [roundsLeft, listed] at htake ⊢
  omega

theorem recvHead_transfersLeft (s : State) : s.recvHead.transfersLeft ≤ s.roundsLeft + 1 := by
  cases hd : s.recvDone with
  | true =>
    rw [recvHead_done hd]
    exact Nat.le_succ_of_le (roundsLeft_le rfl rfl rfl rfl)
  | false =>
    rw [recvHead_more hd]
    exact Nat.le_refl _

theorem recvAppend_roundsLeft (s : State) (o : Nat) : (s.recvAppend o).roundsLeft = s.roundsLeft := rfl

theorem buildReply_transfersLeft (s : State) (o : Nat) : ((s.recvAppend o).buildReply o).transfersLeft ≤ s.roundsLeft :=
  transfersLeft_le (s := s) rfl rfl rfl rfl rfl

theorem recvNext_transfersLeft (hb : s.opBlk = false) (hk : s.work.k.toNat < s.work.pkts.toNat) :
    s.recvNext.transfersLeft < s.roundsLeft := by
  have hhead := recvHead_transfersLeft (s.setK (s.work.k + 1))
  have hsucc : (s.setK (s.work.k + 1)).roundsLeft + 2 ≤ s.roundsLeft := roundsLeft_succ rfl rfl hk (Nat.le_refl _)
  rw [recvNext_nonBlocking hb]
  omega

/-- A blocking pass takes a byte; a non-blocking one goes on to a reply or has one packet fewer to come. -/
theorem tickReceiving_transfersLeft (h : s.Collects) (hf : s.fsm = .receiving) (ha : s.awaitsLink = false) :
    s.tickReceiving.transfersLeft ≤ s.roundsLeft := by
  obtain ⟨hle, hlt⟩ := passed_roundsLeft h.part
  have hblocking (hb : s.opBlk = true) : s.passed.roundsLeft < s.roundsLeft := hlt (listed_pos ha hb (by rw [hf]; rfl))
  cases hr : s.nextScan with
  | none =>
    rw [tickReceiving_none hr]
    cases hb : s.opBlk with
    | true =>
      rw [recvNext_blocking ((passed_opBlk s).trans hb)]
      exact (recvHead_transfersLeft s.passed).trans (hblocking hb)
    | false =>
      have hk : s.passed.work.k.toNat < s.passed.work.pkts.toNat := by
        rw [passed_eq]
        exact (((passDue_iff s).mp (h.receiving hf)).2 hb).1
      exact (recvNext_transfersLeft ((passed_opBlk s).trans hb) hk).le.trans hle
  | ack o e =>
    rw [tickReceiving_ack hr]
    exact Nat.le_trans (transfersLeft_le (s := s.passed) rfl rfl rfl rfl rfl) hle
  | data o =>
    cases hb : s.opBlk with
    | true =>
      rw [tickReceiving_data_blocking hr hb]
      have hhead := recvHead_transfersLeft (s.passed.recvAppend o)
      rw [recvAppend_roundsLeft] at hhead
      exact hhead.trans (hblocking hb)
    | false =>
      rw [tickReceiving_data_nonBlocking hr hb]
      exact (buildReply_transfersLeft _ o).trans hle

theorem Collects.transfersLeft_tick (h : s.Collects) (hbusy : s.fsm ≠ .idle) (ha : s.awaitsLink = false) :
    s.tick.transfersLeft < s.transfersLeft := by
  rcases h.side.resolve_right hbusy with hf | hf
  · rw [tick_receiving hf, transfersLeft_eq s, hf]
    exact Nat.lt_succ_of_le (tickReceiving_transfersLeft h hf ha)
  · obtain ⟨hb, -, hend⟩ := h.replying hf
    rw [tick_replying hf, transfersLeft_eq s, hf, tickReplying, transmit_eq]
    exact recvNext_transfersLeft hb (hend.nonBlocking hb).1

theorem runRecv_ends (s : State) :
    s.startRecv.runCommand.fsm = .idle ∨ s.startRecv.runCommand.awaitsLink = true := by
  have hrank : s.startRecv.fsm.rank ≤ 1 := by rcases startRecv_fsm s with (hf | hf) | hf <;> rw [hf] <;> decide
  exact (run_ends (Q := Collects) (fun _ h hbusy ha => ⟨h.tick, h.transfersLeft_tick hbusy ha⟩) _
    (startRecv_collects s) (transfersLeft_le_runBound hrank)).2

/-! ### SEND -/

/-- Where a run of SEND stands before each of its transfers: at its first request, in a state that waits for an Ack or
sends again only if it is blocking (43_send.md R107, R108). -/
structure SendRuns (s : State) : Prop where
  op : s.cmd.op = 0xA
  part : s.part = 0
  side : s.fsm.sendSide ∨ s.fsm = .idle
  blocking : s.fsm = .sending ∧ s.prog.resend = false ∨ s.fsm = .idle ∨ s.cmd.blk = true
  completed : s.fsm = .idle → s.resValid = true

theorem nextPacket_sendRuns (hop : s.cmd.op = 0xA) :
    s.nextPacket.SendRuns ∧ s.nextPacket.transfersLeft ≤ s.roundsLeft := by
  rcases Nat.lt_or_ge (s.work.k.toNat + 1) s.work.pkts.toNat with hk | hk
  · rw [nextPacket_more hop hk]
    refine ⟨⟨hop, rfl, Or.inl (Or.inl rfl), Or.inl ⟨rfl, rfl⟩, nofun⟩, ?_⟩
    exact (Nat.le_succ _).trans (roundsLeft_succ rfl rfl (by omega) (Nat.add_le_add_right (Nat.zero_le _) _))
  · rw [nextPacket_last hop hk]
    exact ⟨⟨hop, rfl, Or.inr rfl, Or.inr (Or.inl rfl), fun _ => rfl⟩, roundsLeft_le rfl rfl rfl rfl⟩

theorem tickSending_sendRuns (h : s.SendRuns) (hf : s.fsm = .sending) :
    s.tickSending.SendRuns ∧ s.tickSending.transfersLeft ≤ s.roundsLeft := by
  cases hr : s.prog.resend with
  | true =>
    have hb : s.cmd.blk = true := by simpa [hf, hr] using h.blocking
    rw [tickSending_resend hr]
    exact ⟨⟨h.op, rfl, Or.inl (Or.inr (Or.inl rfl)), Or.inr (Or.inr hb), nofun⟩, Nat.le_refl _⟩
  | false =>
    cases hb : s.cmd.blk with
    | true =>
      rw [tickSending_blocking h.op hr hb]
      exact ⟨⟨h.op, rfl, Or.inl (Or.inr (Or.inl rfl)), Or.inr (Or.inr hb), nofun⟩, Nat.le_refl _⟩
    | false =>
      rw [tickSending_nonBlocking h.op hr hb]
      exact nextPacket_sendRuns h.op

theorem tickAwaitingAck_sendRuns (h : s.SendRuns) (hf : s.fsm = .awaitingAck) (ha : s.awaitsLink = false) :
    s.tickAwaitingAck.SendRuns ∧ s.tickAwaitingAck.transfersLeft < s.roundsLeft := by
  have hb : s.cmd.blk = true := by simpa [hf] using h.blocking
  have hpos := listed_pos ha ((opBlk_send h.op).trans hb) (by rw [hf]; rfl)
  have htake := capture_listed h.part
  obtain ⟨heq, hfsm⟩ := tickAwaitingAck_eq s
  have hnext : s.tickAwaitingAck.fsm = .acked ∨ s.tickAwaitingAck.fsm = .timedOut ∨ s.tickAwaitingAck.fsm = .retrying := by
    rw [hfsm]
    split
    · exact Or.inl rfl
    · split
      · exact Or.inr (Or.inl rfl)
      · exact Or.inr (Or.inr rfl)
  generalize s.tickAwaitingAck = u at heq hnext
  have hside : u.fsm.sendSide ∧ u.fsm ≠ .idle ∧ u.fsm.rank ≤ 2 := by
    rcases hnext with hn | hn | hn <;> simp [hn, Fsm.sendSide, Fsm.rank]
  obtain ⟨hside, hbusy, hrank⟩ := hside
  have hrounds : u.roundsLeft + 3 ≤ s.roundsLeft := by
    rw [heq]
    simp only [roundsLeft, listed, List.length_nil] at hpos htake ⊢
    omega
  refine ⟨?_, ?_⟩
  · rw [heq]
    exact ⟨h.op, rfl, Or.inl hside, Or.inr (Or.inr hb), fun hi => absurd hi hbusy⟩
  · rw [transfersLeft]
    omega

theorem SendRuns.tick (h : s.SendRuns) (hbusy : s.fsm ≠ .idle) (ha : s.awaitsLink = false) :
    s.tick.SendRuns ∧ s.tick.transfersLeft < s.transfersLeft := by
  rw [transfersLeft_eq s]
  rcases h.side.resolve_right hbusy with hf | hf | hf | hf | hf
  · obtain ⟨hruns, hle⟩ := tickSending_sendRuns h hf
    rw [tick_sending hf, hf]
    exact ⟨hruns, Nat.lt_succ_of_le hle⟩
  · rw [tick_awaitingAck hf, hf]
    exact tickAwaitingAck_sendRuns h hf ha
  · obtain ⟨hruns, hle⟩ := nextPacket_sendRuns (s := s) h.op
    rw [tick_acked hf, hf]
    exact ⟨hruns, Nat.lt_succ_of_le hle⟩
  · have hb : s.cmd.blk = true := by simpa [hf] using h.blocking
    have hrounds : s.tickRetrying.roundsLeft ≤ s.roundsLeft := roundsLeft_le rfl rfl rfl rfl
    rw [tick_retrying hf, hf]
    exact ⟨⟨h.op, rfl, Or.inl (Or.inl rfl), Or.inr (Or.inr hb), nofun⟩,
      Nat.add_lt_add_of_le_of_lt hrounds (Nat.lt_succ_self 1)⟩
  · have hrounds : s.tickTimedOut.roundsLeft ≤ s.roundsLeft := roundsLeft_le rfl rfl rfl rfl
    rw [tick_timedOut hf, hf]
    exact ⟨⟨h.op, rfl, Or.inr rfl, Or.inr (Or.inl rfl), fun _ => rfl⟩, Nat.lt_succ_of_le hrounds⟩

theorem startSend_sendRuns (hop : s.cmd.op = 0xA) : s.startSend.SendRuns := by
  by_cases hn : s.cmd.n.toNat = 0
  · rw [startSend_empty hop hn]
    exact ⟨hop, rfl, Or.inr rfl, Or.inr (Or.inl rfl), fun _ => rfl⟩
  · rw [startSend_message hop hn]
    exact ⟨hop, rfl, Or.inl (Or.inl rfl), Or.inl ⟨rfl, rfl⟩, nofun⟩

theorem runSend_ends (hop : s.cmd.op = 0xA) :
    s.startSend.runCommand.SendRuns ∧
    (s.startSend.runCommand.fsm = .idle ∨ s.startSend.runCommand.awaitsLink = true) := by
  have hrank : s.startSend.fsm.rank ≤ 1 := by rcases startSend_fsm s with hf | hf <;> rw [hf] <;> decide
  exact run_ends (Q := SendRuns) (fun _ => SendRuns.tick) _ (startSend_sendRuns hop) (transfersLeft_le_runBound hrank)

/-- A command that has run on has completed, or waits on a silent link, or is a blocking one at a capture with no byte
left. -/
theorem ended_cases (hout : SameOutside s t) (hvalid : t.fsm = .idle → t.resValid = true)
    (hend : t.fsm = .idle ∨ t.awaitsLink = true) :
    (t.fsm = .idle ∧ t.resValid = true) ∨ (s.silent = true ∧ t.stalled = true) ∨
    (s.opBlk = true ∧ t.line = [] ∧ t.rx = [] ∧ (t.fsm = .awaitingAck ∨ t.fsm = .receiving)) := by
  rcases hend with hidle | hawaits
  · exact Or.inl ⟨hidle, hvalid hidle⟩
  · rcases (awaitsLink_iff t).mp hawaits with hs | ⟨hb, hl, hline, hrx⟩
    · have hsilent : t.silent = true := (Bool.and_eq_true _ _ ▸ hs).1
      exact Or.inr (Or.inl ⟨hout.silent ▸ hsilent, hs⟩)
    · exact Or.inr (Or.inr ⟨(opBlk_congr hout.cmd).symm.trans hb, hline, hrx, (listens_iff _).mp hl⟩)

theorem recv_ended_cases (s : State) :
    let t := s.startRecv.runCommand
    (t.fsm = .idle ∧ t.resValid = true) ∨ (s.silent = true ∧ t.stalled = true) ∨
    (s.opBlk = true ∧ t.line = [] ∧ t.rx = [] ∧ (t.fsm = .awaitingAck ∨ t.fsm = .receiving)) := by
  have hrun : RecvRun s s.startRecv.runCommand := run_recvRun s _
  exact ended_cases hrun.outside (fun hidle => (hrun.collects.completed hidle).valid) (runRecv_ends s)

end State

open State

/-- Settles O54: every transfer leaves fewer to come, and the run's bound covers them. -/
theorem commandCompletesOrAwaitsLink : Obligations.CommandCompletesOrAwaitsLink := by
  intro s t i a n blk ako hi h
  rcases hi with rfl | rfl | ⟨rfl, rfl⟩ <;> cases h
  · obtain ⟨hruns, hend⟩ := runSend_ends (s := s.latchSend a n blk) rfl
    exact ended_cases (s := s.latchSend a n blk) (runSend_sameOutside _) hruns.completed hend
  · exact recv_ended_cases (s.latchRecv n blk ako)
  · exact recv_ended_cases (s.latchOp 0xC)

/-- Settles O48: where the link answers, a non-blocking run ends at a completion alone. -/
theorem nonBlockingRecvAlwaysEnds : Obligations.NonBlockingRecvAlwaysEnds := by
  intro s n ako hs
  let latched := s.latchRecv n false ako
  have hrun : RecvRun latched latched.startRecv.runCommand := run_recvRun latched _
  have hidle : latched.startRecv.runCommand.fsm = .idle := by
    rcases recv_ended_cases latched with ⟨hidle, -⟩ | ⟨hsilent, -⟩ | ⟨hb, -⟩
    · exact hidle
    · exact absurd (hs.symm.trans hsilent) (by decide)
    · cases hb
  have hexec := exec_recv s n false ako
  generalize latched.startRecv.runCommand = t at hrun hidle hexec
  have hdone := hrun.collects.completed hidle
  refine ⟨t, hexec, hidle, hdone.valid, hdone.tmo, hdone.ill, fun hako => ?_⟩
  have hako' : t.opAko = false := (opAko_congr hrun.outside.cmd).trans hako
  have hsize : t.opSize = n.toNat := opSize_congr hrun.outside.cmd hrun.outside.par
  have hP : t.payloadSize = s.payloadSize := congrArg Params.payloadSize hrun.outside.par
  rw [hdone.result hako', ← hP, ← hsize]
  exact ⟨hrun.collects.gathers.whole, hdone.nonBlocking hako' (opBlk_congr hrun.outside.cmd),
    hrun.collects.gathers.found⟩

end Sys2Proof.Machine
end

section
/-! A RECV that ends with its first pass (44_recv.md R123 to R128): its window is the oracle's next one, since a command
begins with nothing heard on the line (20_memory.md R42). -/

namespace Sys2Proof.Machine.State

variable {s : State}

/-- The first pass is due: nothing is heard, counted or matched yet. -/
def firstPass (s : State) : State := s.loopStart.setFsm .receiving

theorem nextBytes_firstPass (s : State) : s.firstPass.nextBytes = s.oracleWindow := rfl

theorem nextWindow_firstPass (s : State) : s.firstPass.nextWindow = s.oracleWindow := nextBytes_firstPass s

theorem nextScan_firstPass (s : State) :
    s.firstPass.nextScan = sync s.payloadSize s.oracleWindow s.cfg.myaddr s.opAko := by
  rw [nextScan, nextWindow_firstPass]
  rfl

/-- Where the link answers, a non-blocking command awaits it nowhere, nor does one with bytes listed. -/
theorem awaitsLink_eq_false_of (hs : s.silent = false) (h : s.opBlk = false ∨ s.rx ≠ []) : s.awaitsLink = false := by
  refine Bool.eq_false_iff.mpr fun hawaits => ?_
  rcases (awaitsLink_iff s).mp hawaits with hstalled | ⟨hb, -, -, hrx⟩
  · exact absurd ((stalled_of_answering hs).symm.trans hstalled) (by decide)
  · rcases h with h | h
    · exact absurd (h.symm.trans hb) (by decide)
    · exact h hrx

/-- The first pass is made at once. -/
theorem runRecv_firstPass (hn : s.opSize ≠ 0) (hs : s.silent = false) (h : s.opBlk = false ∨ s.rx ≠ []) :
    ∃ n, s.startRecv.runCommand = run (n + 1) s.firstPass.tickReceiving := by
  have hawaits : s.firstPass.awaitsLink = false := awaitsLink_eq_false_of hs h
  refine ⟨3 * (s.firstPass.line.length + s.firstPass.rx.length) + 518, ?_⟩
  rw [startRecv_of_pos hn]
  exact (run_tick s.firstPass nofun hawaits).trans (congrArg (run _) (tick_receiving rfl))

/-- A message of one packet needs one pass. -/
theorem firstPass_last (hn : 1 ≤ s.opSize) (hP : s.opSize ≤ s.payloadSize) :
    s.firstPass.work.pkts.toNat ≤ (s.firstPass.work.k + 1).toNat := by
  have hpkts : s.firstPass.work.pkts.toNat = packetCount s.opSize s.payloadSize := s.pkts_toNat
  rw [hpkts, packetCount_eq_one hn hP]
  exact Nat.le_refl 1

/-- A whole window is captured from its beginning. -/
theorem length_nextWindow_of_part (hp : s.part = 0) : s.nextWindow.length = s.windowSize := by
  rw [nextWindow, nextBytes, windowRest, hp, List.take_zero, List.nil_append, length_linkBytes, Nat.sub_zero]

/-- An accepted RECV answers with its run. -/
theorem exec_recv_recvRun (s : State) (n : Byte) (blk ako : Bool) :
    ∃ t, exec (.recv n blk ako) s = .next t ∧ RecvRun (s.latchRecv n blk ako) t ∧
      t = (s.latchRecv n blk ako).startRecv.runCommand :=
  ⟨_, exec_recv s n blk ako, run_recvRun _ _, rfl⟩

theorem opSize_latchRecv (s : State) (n : Byte) (blk ako : Bool) : (s.latchRecv n blk ako).opSize = n.toNat :=
  opSize_recv rfl

theorem opBlk_latchRecv (s : State) (n : Byte) (blk ako : Bool) : (s.latchRecv n blk ako).opBlk = blk := opBlk_recv rfl

theorem opAko_latchRecv (s : State) (n : Byte) (blk ako : Bool) : (s.latchRecv n blk ako).opAko = ako := opAko_recv rfl

theorem nextScan_latchRecv (s : State) (n : Byte) (blk ako : Bool) :
    (s.latchRecv n blk ako).firstPass.nextScan = sync s.payloadSize s.oracleWindow s.cfg.myaddr ako := by
  rw [nextScan_firstPass, opAko_latchRecv]
  rfl

/-- The first append is to `OBUF[0 .. P)`. -/
theorem firstPass_append {o : Nat} (hm : Memory.wf s.obuf = true) (hr : s.firstPass.nextScan = .data o) :
    (∀ x, x < s.payloadSize →
      Memory.read (s.firstPass.passed.recvAppend o).obuf x = byteAt s.oracleWindow (o + 3 + x)) ∧
    (∀ x, s.payloadSize ≤ x → Memory.read (s.firstPass.passed.recvAppend o).obuf x = Memory.read s.obuf x) := by
  have hfits : s.payloadSize ≤ 512 := s.par.payloadSize_le.trans (by decide)
  have hzero : s.firstPass.work.bytesDone.toNat = 0 := rfl
  obtain ⟨hin, hout⟩ := recvAppend_obuf (s := s.firstPass) hm (length_nextWindow_of_part rfl) hr
    (by rw [hzero, Nat.zero_add]; exact hfits)
  rw [hzero, nextWindow_firstPass] at hin
  rw [hzero] at hout
  refine ⟨fun x hx => ?_, fun x hx => hout x (Or.inr ((Nat.zero_add _).trans_le hx))⟩
  have hread := hin x hx
  rwa [Nat.zero_add] at hread

/-- A completed run, from what its completion shows. -/
theorem RecvRun.frame_of_idle {t : State} {r : Result} {w x : List Byte} {m : Memory} {e : List LinkEvent}
    (h : RecvRun s t) (hidle : t.fsm = .idle) (hline : t.line = []) (hvalid : t.resValid = true) (hres : t.res = r)
    (hwin : t.win = w) (htxf : t.txf = x) (hobuf : t.obuf = m) (htrace : t.trace = e) : t = { s with
      fsm := .idle, line := [], part := 0, resValid := true, res := r, win := w, txf := x, obuf := m, rx := t.rx
      draws := t.draws, trace := e
      work := { t.work with attempts := s.work.attempts }, prog := { t.prog with resend := s.prog.resend } } := by
  have hframe := h.frame
  rwa [hidle, hline, hvalid, hres, hwin, htxf, hobuf, htrace] at hframe

/-- A non-blocking command of one packet whose window holds no match (R123, R130 (d)). -/
theorem runRecv_miss {t : State} (hb : s.opBlk = false) (hs : s.silent = false) (hn : 1 ≤ s.opSize)
    (hP : s.opSize ≤ s.payloadSize) (hr : s.firstPass.nextScan = .none) (ht : RecvRun s t)
    (hrun : t = s.startRecv.runCommand) : t = { s with
      fsm := .idle, line := [], part := 0, resValid := true, res := {}, win := s.oracleWindow, rx := t.rx
      draws := t.draws, trace := s.trace ++ s.oracleWindow.map .rx
      work := { t.work with attempts := s.work.attempts }, prog := { t.prog with resend := s.prog.resend } } := by
  obtain ⟨m, hpass⟩ := runRecv_firstPass (Nat.ne_of_gt hn) hs (Or.inl hb)
  have hlast : s.firstPass.passed.work.pkts.toNat ≤ (s.firstPass.passed.work.k + 1).toNat := by
    rw [passed_eq]
    exact firstPass_last hn hP
  rw [hpass, tickReceiving_none hr, recvNext_last ((passed_opBlk s.firstPass).trans hb) hlast, run_idle _ _ rfl,
    passed_eq, nextWindow_firstPass, nextBytes_firstPass] at hrun
  refine ht.frame_of_idle ?_ ?_ ?_ ?_ ?_ ?_ ?_ ?_ <;> rw [hrun] <;> rfl

/-- A non-blocking command of one packet whose window holds a Data match at `o` (R124, R125). -/
theorem runRecv_data {t : State} {o : Nat} (hb : s.opBlk = false) (hs : s.silent = false) (hn : 1 ≤ s.opSize)
    (hP : s.opSize ≤ s.payloadSize) (hr : s.firstPass.nextScan = .data o) (ht : RecvRun s t)
    (hrun : t = s.startRecv.runCommand) :
    let w := s.oracleWindow
    let ack := encodeAck s.payloadSize (byteAt w (o + 1)) s.cfg.myaddr (byteAt w (o + s.frameSize - 1))
    t = { s with
      fsm := .idle, line := [], part := 0, resValid := true, win := w, txf := ack
      obuf := (s.firstPass.passed.recvAppend o).obuf, rx := t.rx
      draws := t.draws, trace := s.trace ++ w.map .rx ++ ack.map .tx
      res := { val := BitVec.ofNat 16 s.payloadSize, a := 0x01, b := byteAt w (o + 1),
               c := byteAt w (o + s.frameSize - 1), fnd := true }
      work := { t.work with attempts := s.work.attempts }, prog := { t.prog with resend := s.prog.resend } } := by
  obtain ⟨m, hpass⟩ := runRecv_firstPass (Nat.ne_of_gt hn) hs (Or.inl hb)
  have heq := tickReceiving_data (s := s.firstPass) hb hr
  have hval : s.firstPass.work.bytesDone + BitVec.ofNat 16 s.firstPass.payloadSize = BitVec.ofNat 16 s.payloadSize :=
    BitVec.zero_add _
  rw [hval, nextWindow_firstPass, nextBytes_firstPass] at heq
  have hobuf := tickReceiving_data_obuf hr
  have hout := tickReceiving_sameOutside s.firstPass
  generalize s.firstPass.tickReceiving = replying at heq hobuf hout hpass
  have hf : replying.fsm = .replying := by rw [heq]
  have hlast : replying.work.pkts.toNat ≤ (replying.work.k + 1).toNat := by
    rw [heq]
    exact firstPass_last hn hP
  rw [hpass, run_answered hf (hout.silent.trans hs) (by decide) rfl, tick_replying hf,
    tickReplying_last ((opBlk_congr hout.cmd).trans hb) hlast, run_idle _ _ rfl] at hrun
  have hobuf' : t.obuf = (s.firstPass.passed.recvAppend o).obuf := by
    rw [hrun]
    exact hobuf
  refine ht.frame_of_idle ?_ ?_ ?_ ?_ ?_ ?_ hobuf' ?_ <;> rw [hrun, heq] <;> rfl

end Sys2Proof.Machine.State

namespace Sys2Proof.Machine

open State

/-- Settles O47: the one pass is the last, and its scan leaves nothing to count. -/
theorem recvMissLeavesNoTrace : Obligations.RecvMissLeavesNoTrace := by
  intro s n ako hs hn hP hr
  have hsize := opSize_latchRecv s n false ako
  obtain ⟨t, hexec, ht, hrun⟩ := exec_recv_recvRun s n false ako
  refine ⟨t, hexec, ?_⟩
  exact runRecv_miss (s := s.latchRecv n false ako) (opBlk_latchRecv s n false ako) hs (hn.trans_eq hsize.symm)
    (hsize.trans_le hP) ((nextScan_latchRecv s n false ako).trans hr) ht hrun

/-- Settles O46: the one pass appends its frame's payload, and its reply is the last transfer. -/
theorem recvDeliversAndAcknowledges : Obligations.RecvDeliversAndAcknowledges := by
  intro s n o hs hn hP hwf w ack hr
  have hsize := opSize_latchRecv s n false false
  have hscan := (nextScan_latchRecv s n false false).trans hr
  obtain ⟨t, hexec, ht, hrun⟩ := exec_recv_recvRun s n false false
  have hrun := runRecv_data (s := s.latchRecv n false false) (opBlk_latchRecv s n false false) hs
    (hn.trans_eq hsize.symm) (hsize.trans_le hP) hscan ht hrun
  obtain ⟨hin, hout⟩ := firstPass_append (s := s.latchRecv n false false) hwf hscan
  have hobuf := congrArg obuf hrun
  refine ⟨t, hexec, ?_, ?_, ?_⟩
  · rw [hobuf]
    exact hrun
  · rw [hobuf]
    exact hin
  · rw [hobuf]
    exact hout

/-- Settles O51: the first pass finds the Ack, and its completion is the command's. -/
theorem ackOnlyReceiveReturnsEcho : Obligations.AckOnlyReceiveReturnsEcho := by
  intro s i n blk o e hi hs hrx w hr
  obtain ⟨c, hn, hako, hexec⟩ : ∃ c : Latches, opSize { s with cmd := c } ≠ 0 ∧ opAko { s with cmd := c } = true ∧
      exec i s = .next (startRecv { s with cmd := c }).runCommand := by
    rcases hi with ⟨rfl, hn⟩ | rfl
    · exact ⟨(s.latchRecv n blk true).cmd, Nat.ne_of_gt hn, rfl, rfl⟩
    · exact ⟨(s.latchOp 0xC).cmd, Nat.ne_of_gt s.par.payloadSize_pos, rfl, rfl⟩
  have ht : RecvRun { s with cmd := c } (startRecv { s with cmd := c }).runCommand := run_recvRun _ _
  obtain ⟨m, hrun⟩ := runRecv_firstPass (s := { s with cmd := c }) hn hs (Or.inr hrx)
  have hscan : (firstPass { s with cmd := c }).nextScan = .ack o e := by
    rw [nextScan_firstPass, hako]
    exact hr
  rw [tickReceiving_ack hscan, run_idle _ _ rfl, passed_eq, nextWindow_firstPass, nextBytes_firstPass] at hrun
  refine ⟨_, hexec, ?_⟩
  generalize (startRecv { s with cmd := c }).runCommand = t at ht hrun
  have hframe := ht.frame_of_idle (by rw [hrun]) (by rw [hrun]) (by rw [hrun]) (by rw [hrun]) (by rw [hrun])
    (by rw [hrun]) (by rw [hrun]) (by rw [hrun])
  rw [ht.outside.cmd]
  exact hframe

end Sys2Proof.Machine
end

section
/-! A RECV over many passes (44_recv.md R121 to R128) on the windows listed for the oracle: `found` says which of them
hold a Data match and where, and what has been received after `m` of them is said at the head of the loop. -/

namespace Sys2Proof.Machine

/-! ### Counting the matches -/

variable {found : Nat → Option Nat}

theorem matchesBefore_succ (found : Nat → Option Nat) (m : Nat) :
    matchesBefore found (m + 1) = matchesBefore found m + if (found m).isSome then 1 else 0 := by
  unfold matchesBefore
  rw [List.range_succ, List.filter_append, List.length_append, List.filter_singleton]
  cases (found m).isSome <;> rfl

theorem matchesBefore_succ_of_none {m : Nat} (h : found m = none) :
    matchesBefore found (m + 1) = matchesBefore found m := by rw [matchesBefore_succ, h]; rfl

theorem matchesBefore_succ_of_some {m o : Nat} (h : found m = some o) :
    matchesBefore found (m + 1) = matchesBefore found m + 1 := by rw [matchesBefore_succ, h]; rfl

theorem matchesBefore_le (found : Nat → Option Nat) (m : Nat) : matchesBefore found m ≤ m := by
  unfold matchesBefore
  exact (List.length_filter_le _ _).trans_eq List.length_range

theorem matchesBefore_mono {j m : Nat} (h : j ≤ m) : matchesBefore found j ≤ matchesBefore found m := by
  induction h with
  | refl => exact Nat.le_refl _
  | step _ ih => exact ih.trans (by rw [matchesBefore_succ]; exact Nat.le_add_right _ _)

/-- A window with a match adds one to the count of every later window. -/
theorem matchesBefore_lt {j m o : Nat} (hj : j < m) (h : found j = some o) :
    matchesBefore found j < matchesBefore found m := by
  have hmono : matchesBefore found (j + 1) ≤ matchesBefore found m := matchesBefore_mono hj
  rwa [matchesBefore_succ_of_some h] at hmono

namespace State

variable {s t u : State} {m o : Nat}

/-! ### A pass on a listed window -/

/-- Where another pass is due, the head of the loop goes into Receiving. -/
def passBegun (s : State) : State := { s with fsm := .receiving, part := 0 }

/-- With nothing heard on the line the next listed bytes fill the window (20_memory.md R38, R41). -/
theorem nextBytes_listed (hp : s.part = 0) (hl : s.line = []) (hrx : s.windowSize ≤ s.rx.length) :
    s.nextBytes = s.listedWindow 0 := by
  rw [nextBytes, windowRest, hp, linkBytes, hl, List.length_nil, Nat.sub_zero, Nat.zero_add,
    Nat.sub_eq_zero_of_le hrx, List.range_zero, List.map_nil, List.append_nil, listedWindow, Nat.zero_mul]
  rfl

/-- What has been received of the first `m` listed windows, at the head of the loop: their matches' payloads, one after
the other, and the last of them noted (R121, R124, R128). -/
structure Received (s : State) (found : Nat → Option Nat) (m : Nat) (t : State) : Prop where
  outside : SameOutside s t
  line : t.line = []
  pkts : t.work.pkts.toNat = packetCount s.opSize s.payloadSize
  rx : t.rx = s.rx.drop (m * s.windowSize)
  count : t.work.bytesDone.toNat = matchesBefore found m * s.payloadSize
  wf : Memory.wf t.obuf = true
  payloads : ∀ j o, j < m → found j = some o → ∀ i, i < s.payloadSize →
    Memory.read t.obuf (matchesBefore found j * s.payloadSize + i) = byteAt (s.listedWindow j) (o + 3 + i)
  kept : ∀ x, matchesBefore found m * s.payloadSize ≤ x → Memory.read t.obuf x = Memory.read s.obuf x
  last : ∀ j o, j < m → found j = some o → matchesBefore found j + 1 = matchesBefore found m →
    t.recvResult.fnd = true ∧ t.recvResult.a = 0x01 ∧ t.recvResult.b = byteAt (s.listedWindow j) (o + 1) ∧
    t.recvResult.c = byteAt (s.listedWindow j) (o + s.frameSize - 1)
  nothing : matchesBefore found m = 0 → t.recvResult = {}

/-- The loop begins with nothing received. -/
theorem received_zero (hm : Memory.wf s.obuf = true) : Received s found 0 s.loopStart where
  outside := ⟨rfl, rfl, rfl, rfl, rfl, rfl, rfl⟩
  line := rfl
  pkts := s.pkts_toNat
  rx := by rw [Nat.zero_mul, List.drop_zero]; rfl
  count := (Nat.zero_mul _).symm
  wf := hm
  payloads := fun _ _ hj => absurd hj (Nat.not_lt_zero _)
  kept := fun _ _ => rfl
  last := fun _ _ hj => absurd hj (Nat.not_lt_zero _)
  nothing := fun _ => rfl

theorem recvAppend_k (s : State) (o : Nat) : (s.recvAppend o).work.k = s.work.k := rfl

theorem recvAppend_pkts (s : State) (o : Nat) : (s.recvAppend o).work.pkts = s.work.pkts := rfl

theorem recvAppend_txf (s : State) (o : Nat) : (s.recvAppend o).txf = s.txf := rfl

theorem recvAppend_trace (s : State) (o : Nat) : (s.recvAppend o).trace = s.trace := rfl

/-- The reply to the match at `o` has been sent, and its pass counted (R125). -/
def replied (s : State) (o : Nat) : State :=
  { s.buildReply o with
    trace := s.trace ++ (s.buildReply o).txf.map .tx, work := { (s.buildReply o).work with k := s.work.k + 1 } }

/-- Counting a pass changes nothing of what has been received. -/
theorem Received.setK (h : Received s found m t) (v : Byte) : Received s found m (t.setK v) := by
  obtain ⟨hout, hline, hpkts, hrx, hcount, hwf, hpayloads, hkept, hlast, hnothing⟩ := h
  exact ⟨hout.trans ⟨rfl, rfl, rfl, rfl, rfl, rfl, rfl⟩, hline, hpkts, hrx, hcount, hwf, hpayloads, hkept, hlast,
    hnothing⟩

/-- Nor does a reply. -/
theorem Received.replied (h : Received s found m t) (o : Nat) : Received s found m (t.replied o) := by
  obtain ⟨hout, -, hpkts, hrx, hcount, hwf, hpayloads, hkept, hlast, hnothing⟩ := h
  exact ⟨hout.trans ⟨rfl, rfl, rfl, rfl, rfl, rfl, rfl⟩, rfl, hpkts, hrx, hcount, hwf, hpayloads, hkept, hlast,
    hnothing⟩

section

variable (h : Received s found m t)
include h

theorem Received.payloadSize : t.payloadSize = s.payloadSize := congrArg Params.payloadSize h.outside.par

theorem Received.frameSize : t.frameSize = s.frameSize := congrArg Params.frameSize h.outside.par

theorem Received.windowSize : t.windowSize = s.windowSize := congrArg Params.windowSize h.outside.par

variable (hrx : (m + 1) * s.windowSize ≤ s.rx.length)
include hrx

theorem Received.length_rx : t.windowSize ≤ t.rx.length := by
  rw [Nat.succ_mul] at hrx
  rw [h.windowSize, h.rx, List.length_drop]
  omega

/-- The windows before are used up. -/
theorem Received.nextBytes : t.passBegun.nextBytes = s.listedWindow m := by
  rw [nextBytes_listed (s := t.passBegun) rfl h.line (h.length_rx hrx)]
  show slice t.rx (0 * t.windowSize) t.windowSize = _
  rw [listedWindow, h.windowSize, h.rx, slice, slice, Nat.zero_mul, List.drop_zero]

theorem Received.nextWindow : t.passBegun.nextWindow = s.listedWindow m := h.nextBytes hrx

theorem Received.nextScan :
    t.passBegun.nextScan = sync s.payloadSize (s.listedWindow m) s.cfg.myaddr s.opAko := by
  rw [State.nextScan, h.nextWindow hrx]
  show sync t.payloadSize _ t.cfg.myaddr t.opAko = _
  rw [h.payloadSize, h.outside.cfg, opAko_congr h.outside.cmd]

/-- The capture of the next listed window. -/
theorem Received.passed_eq : t.passBegun.passed = { t with
    fsm := .receiving, part := 0, win := s.listedWindow m, line := [], rx := s.rx.drop ((m + 1) * s.windowSize)
    draws := t.passBegun.passed.draws, trace := t.trace ++ (s.listedWindow m).map .rx
    work := { t.work with o := t.passBegun.passed.work.o, crc := t.passBegun.passed.work.crc } } := by
  have heq := State.passed_eq t.passBegun
  have hline : t.passBegun.line = [] := h.line
  have hrest : t.passBegun.windowRest - ([] : List Byte).length = s.windowSize := h.windowSize
  have hdrop : t.passBegun.rx.drop s.windowSize = s.rx.drop ((m + 1) * s.windowSize) := by
    show t.rx.drop _ = _
    rw [h.rx, List.drop_drop, Nat.succ_mul]
  rw [h.nextWindow hrx, h.nextBytes hrx, hline, hrest, hdrop, List.drop_nil] at heq
  exact heq

/-- A window without a match leaves what has been received (R121). -/
theorem Received.miss (hf : found m = none) : Received s found (m + 1) t.passBegun.passed := by
  have heq := h.passed_eq hrx
  have hsame := matchesBefore_succ_of_none hf
  have hearlier {j : Nat} {o : Nat} (hj : j < m + 1) (hfj : found j = some o) : j < m :=
    Nat.lt_of_le_of_ne (Nat.le_of_lt_succ hj) fun hjm => by simp [hjm, hf] at hfj
  obtain ⟨hout, hline, hpkts, -, hcount, hwf, hpayloads, hkept, hlast, hnothing⟩ := h
  rw [heq]
  exact {
    outside := hout.trans ⟨rfl, rfl, rfl, rfl, rfl, rfl, rfl⟩
    line := rfl
    pkts := hpkts
    rx := rfl
    count := by rw [hsame]; exact hcount
    wf := hwf
    payloads := fun j o hj hfj => hpayloads j o (hearlier hj hfj) hfj
    kept := by rw [hsame]; exact hkept
    last := fun j o hj hfj => by rw [hsame]; exact hlast j o (hearlier hj hfj) hfj
    nothing := by rw [hsame]; exact hnothing }

/-- A match appends its payload behind those before, and is the last one noted (R124, R128). -/
theorem Received.append (hf : found m = some o) (hr : t.passBegun.nextScan = .data o)
    (hlt : matchesBefore found m < packetCount s.opSize s.payloadSize) :
    Received s found (m + 1) (t.passBegun.passed.recvAppend o) := by
  have hbase : t.work.bytesDone.toNat < 255 := by
    rw [h.count]
    exact (mul_lt_of_lt_packetCount hlt).trans_le s.opSize_le
  have hP : t.payloadSize ≤ 251 := t.par.payloadSize_le
  have heq := h.passed_eq hrx
  have hone := matchesBefore_succ_of_some hf
  obtain ⟨hin, hout⟩ := recvAppend_obuf (s := t.passBegun) (o := o) h.wf (length_nextWindow_of_part rfl) hr
    (show t.work.bytesDone.toNat + t.payloadSize ≤ 512 by omega)
  have hwork : t.passBegun.work = t.work := rfl
  have hpayload : t.passBegun.payloadSize = s.payloadSize := h.payloadSize
  rw [hwork, hpayload, h.count] at hin hout
  rw [h.nextWindow hrx] at hin
  have hcount : (t.passBegun.passed.recvAppend o).work.bytesDone.toNat =
      matchesBefore found (m + 1) * s.payloadSize := by
    have hsum : (t.passBegun.passed.recvAppend o).work.bytesDone = t.work.bytesDone + BitVec.ofNat 16 t.payloadSize := by
      rw [heq]
      rfl
    rw [hone, Nat.succ_mul, ← h.count, ← h.payloadSize, hsum, BitVec.toNat_add, BitVec.toNat_ofNat]
    omega
  exact {
    outside := by rw [heq]; exact h.outside.trans ⟨rfl, rfl, rfl, rfl, rfl, rfl, rfl⟩
    line := by rw [heq]; rfl
    pkts := by rw [recvAppend_pkts, heq]; exact h.pkts
    rx := by rw [heq]; rfl
    count := hcount
    wf := by rw [heq]; exact Memory.wf_writeBytes _ _ h.wf
    payloads := fun j o' hj hfj i hi => by
      rcases Nat.lt_succ_iff_lt_or_eq.mp hj with hj | rfl
      · have hbefore : (matchesBefore found j + 1) * s.payloadSize ≤ matchesBefore found m * s.payloadSize :=
          Nat.mul_le_mul_right _ (matchesBefore_lt hj hfj)
        rw [Nat.succ_mul] at hbefore
        rw [hout _ (Or.inl (by omega))]
        exact h.payloads j o' hj hfj i hi
      · cases hf.symm.trans hfj
        exact hin i hi
    kept := fun x hx => by
      rw [hone, Nat.succ_mul] at hx
      rw [hout x (Or.inr hx)]
      exact h.kept x (Nat.le_of_add_right_le hx)
    last := fun j o' hj hfj hlast => by
      have hj' : j = m := by
        refine (Nat.lt_succ_iff_lt_or_eq.mp hj).resolve_left fun hj => ?_
        have := matchesBefore_lt hj hfj
        omega
      subst hj'
      cases hf.symm.trans hfj
      rw [heq, ← h.frameSize]
      exact ⟨rfl, rfl, rfl, rfl⟩
    nothing := fun hzero => absurd (hone.symm.trans hzero) (Nat.succ_ne_zero _) }

end

/-! ### The passes of a run -/

/-- Where another pass is due and its window is listed, it is made. -/
theorem Received.run_pass (h : Received s found m t) (hs : s.silent = false)
    (hrx : (m + 1) * s.windowSize ≤ s.rx.length) (hmore : t.recvDone = false) (n : Nat) :
    run (n + 1) t.recvHead = run n t.passBegun.tickReceiving := by
  have hlisted : t.passBegun.rx ≠ [] :=
    List.ne_nil_of_length_pos (Nat.lt_of_lt_of_le (by simp) (h.length_rx hrx))
  rw [recvHead_more hmore]
  exact (run_tick t.passBegun nofun (awaitsLink_eq_false_of (h.outside.silent.trans hs) (Or.inr hlisted))).trans
    (congrArg (run n) (tick_receiving rfl))

/-- The events of window `j` for a blocking command: its capture alone (R125). -/
def windowHeard (s : State) (j : Nat) : List LinkEvent := (s.listedWindow j).map .rx

/-- The Ack of a match at `o` in window `j` (R125). -/
def windowReply (s : State) (j o : Nat) : List LinkEvent :=
  (encodeAck s.payloadSize (byteAt (s.listedWindow j) (o + 1)) s.cfg.myaddr
    (byteAt (s.listedWindow j) (o + s.frameSize - 1))).map .tx

/-- The events of window `j` for a non-blocking command: its capture and, after a match, one Ack (R125). -/
def windowAnswered (s : State) (found : Nat → Option Nat) (j : Nat) : List LinkEvent :=
  s.windowHeard j ++ (found j).elim [] (s.windowReply j)

theorem flatMap_range_succ (f : Nat → List LinkEvent) (m : Nat) :
    (List.range (m + 1)).flatMap f = (List.range m).flatMap f ++ f m := by
  rw [List.range_succ, List.flatMap_append, List.flatMap_singleton]

/-- A blocking command has sent nothing. -/
structure ReceivedSilently (s : State) (found : Nat → Option Nat) (m : Nat) (t : State) : Prop
    extends Received s found m t where
  txf : t.txf = s.txf
  trace : t.trace = s.trace ++ (List.range m).flatMap s.windowHeard

/-- A non-blocking command has counted its passes and replied to every match. -/
structure ReceivedAnswering (s : State) (found : Nat → Option Nat) (m : Nat) (t : State) : Prop
    extends Received s found m t where
  k : t.work.k.toNat = m
  txf : matchesBefore found m = 0 → t.txf = s.txf
  trace : t.trace = s.trace ++ (List.range m).flatMap (s.windowAnswered found)

/-- A pass of a blocking command is one transfer. -/
theorem ReceivedSilently.succ (h : ReceivedSilently s found m t) (hb : s.opBlk = true) (hs : s.silent = false)
    (hrx : (m + 1) * s.windowSize ≤ s.rx.length)
    (hscan : sync s.payloadSize (s.listedWindow m) s.cfg.myaddr s.opAko = dataAt (found m))
    (hlt : matchesBefore found m < packetCount s.opSize s.payloadSize) :
    ∃ u, ReceivedSilently s found (m + 1) u ∧ ∀ n, run (n + 1) t.recvHead = run n u.recvHead := by
  obtain ⟨h, htxf, htrace⟩ := h
  have hbt : t.opBlk = true := (opBlk_congr h.outside.cmd).trans hb
  have heq := h.passed_eq hrx
  have hmore : t.recvDone = false := by
    refine Bool.eq_false_iff.mpr fun hdone => ?_
    have hover := (recvDone_iff t).mp hdone
    rw [LoopOver, if_pos hbt, opSize_congr h.outside.cmd h.outside.par, h.count] at hover
    exact absurd (mul_lt_of_lt_packetCount hlt) (Nat.not_lt.mpr hover)
  have hscan := (h.nextScan hrx).trans hscan
  have hrun := h.run_pass hs hrx hmore
  have hheard : t.passBegun.passed.trace = s.trace ++ (List.range (m + 1)).flatMap s.windowHeard := by
    rw [heq, flatMap_range_succ, ← List.append_assoc, ← htrace]
    rfl
  have hkeep : t.passBegun.passed.txf = s.txf := by
    rw [heq]
    exact htxf
  cases hf : found m with
  | none =>
    rw [hf] at hscan
    refine ⟨_, ⟨h.miss hrx hf, hkeep, hheard⟩, fun n => ?_⟩
    rw [hrun, tickReceiving_none hscan, recvNext_blocking ((passed_opBlk t.passBegun).trans hbt)]
  | some o =>
    rw [hf] at hscan
    refine ⟨_, ⟨h.append hrx hf hscan hlt, (recvAppend_txf _ o).trans hkeep,
      (recvAppend_trace _ o).trans hheard⟩, fun n => ?_⟩
    rw [hrun, tickReceiving_data_blocking hscan hbt]

/-- The passes of a blocking command on its first `m` listed windows (R122). -/
theorem run_receivedSilently (hb : s.opBlk = true) (hs : s.silent = false) (hm : Memory.wf s.obuf = true) (m : Nat)
    (hrx : m * s.windowSize ≤ s.rx.length)
    (hscan : ∀ j, j < m → sync s.payloadSize (s.listedWindow j) s.cfg.myaddr s.opAko = dataAt (found j))
    (hlt : ∀ j, j < m → matchesBefore found j < packetCount s.opSize s.payloadSize) :
    ∃ t, ReceivedSilently s found m t ∧ ∀ n, run (n + m) s.startRecv = run n t.recvHead := by
  induction m with
  | zero => exact ⟨s.loopStart, ⟨received_zero hm, rfl, (List.append_nil _).symm⟩, fun _ => rfl⟩
  | succ m ih =>
    have hle : m * s.windowSize ≤ (m + 1) * s.windowSize := Nat.mul_le_mul_right _ (Nat.le_succ m)
    obtain ⟨t, ht, hrun⟩ := ih (hle.trans hrx) (fun j hj => hscan j (by omega)) fun j hj => hlt j (by omega)
    obtain ⟨u, hu, hrun'⟩ := ht.succ hb hs hrx (hscan m (Nat.lt_succ_self m)) (hlt m (Nat.lt_succ_self m))
    exact ⟨u, hu, fun n => by rw [← hrun', ← hrun]; congr 1; omega⟩

/-! ### The replies of a run -/

/-- A reply is one transfer. -/
theorem run_reply (hb : s.opBlk = false) (hs : s.silent = false) (o n : Nat) :
    run (n + 1) (s.buildReply o) = run n (s.replied o).recvHead := by
  have hreply : (s.buildReply o).tickReplying = (s.replied o).recvHead := tickReplying_eq (s := s.buildReply o) hb
  rw [run_answered (f := .replying) (s := s.buildReply o) rfl hs (by decide) rfl, tick_replying rfl, hreply]

section

variable (h : Received s found (m + 1) t) (hk : (t.work.k + 1).toNat = m + 1)
  (htrace : t.trace = s.trace ++ (List.range m).flatMap (s.windowAnswered found) ++ s.windowHeard m)
include h hk htrace

/-- A pass without a match has been counted (R123). -/
theorem Received.answering_of_miss (hf : found m = none) (htxf : matchesBefore found m = 0 → t.txf = s.txf) :
    ReceivedAnswering s found (m + 1) (t.setK (t.work.k + 1)) where
  toReceived := h.setK _
  k := hk
  txf := by rw [matchesBefore_succ_of_none hf]; exact htxf
  trace := by
    rw [flatMap_range_succ, windowAnswered, hf, Option.elim_none, List.append_nil, ← List.append_assoc]
    exact htrace

/-- A match has been replied to and its pass counted (R125). -/
theorem Received.answering_of_match (hf : found m = some o) (hwin : t.win = s.listedWindow m) :
    ReceivedAnswering s found (m + 1) (t.replied o) where
  toReceived := h.replied o
  k := hk
  txf := fun hzero => absurd ((matchesBefore_succ_of_some hf).symm.trans hzero) (Nat.succ_ne_zero _)
  trace := by
    rw [flatMap_range_succ, windowAnswered, hf, Option.elim_some, ← List.append_assoc, ← List.append_assoc,
      ← htrace, windowReply, ← hwin, ← h.payloadSize, ← h.frameSize, ← h.outside.cfg]
    rfl

end

/-- A pass of a non-blocking command, with its reply, is one or two transfers. -/
theorem ReceivedAnswering.succ (h : ReceivedAnswering s found m t) (hb : s.opBlk = false) (hs : s.silent = false)
    (hrx : (m + 1) * s.windowSize ≤ s.rx.length)
    (hscan : sync s.payloadSize (s.listedWindow m) s.cfg.myaddr s.opAko = dataAt (found m))
    (hlt : m < packetCount s.opSize s.payloadSize) :
    ∃ u c, ReceivedAnswering s found (m + 1) u ∧ c ≤ 2 ∧ ∀ n, run (n + c) t.recvHead = run n u.recvHead := by
  obtain ⟨h, hk, htxf, htrace⟩ := h
  have hbt : t.opBlk = false := (opBlk_congr h.outside.cmd).trans hb
  have hmore : t.recvDone = false := by
    refine Bool.eq_false_iff.mpr fun hdone => ?_
    have hover := (recvDone_iff t).mp hdone
    rw [LoopOver, if_neg (Bool.eq_false_iff.mp hbt), h.pkts, hk] at hover
    exact absurd hlt (Nat.not_lt.mpr hover)
  have hscan := (h.nextScan hrx).trans hscan
  have hrun := h.run_pass hs hrx hmore
  have hcounted : (t.work.k + 1).toNat = m + 1 := by
    have hpkts := h.pkts
    bv_omega
  have heq := h.passed_eq hrx
  cases hf : found m with
  | none =>
    rw [hf] at hscan
    have hpassed := h.miss hrx hf
    rw [tickReceiving_none hscan, recvNext_nonBlocking ((passed_opBlk t.passBegun).trans hbt)] at hrun
    generalize t.passBegun.passed = p at hpassed hrun heq
    refine ⟨_, 1, hpassed.answering_of_miss ?_ ?_ hf ?_, by decide, hrun⟩ <;> rw [heq]
    · exact hcounted
    · rw [← htrace]
      rfl
    · exact htxf
  | some o =>
    rw [hf] at hscan
    have happended := h.append hrx hf hscan ((matchesBefore_le found m).trans_lt hlt)
    rw [tickReceiving_data_nonBlocking hscan hbt] at hrun
    have hk : ((t.passBegun.passed.recvAppend o).work.k + 1).toNat = m + 1 := by
      have hkeep : t.passBegun.passed.work.k = t.work.k := by rw [heq]
      rwa [recvAppend_k, hkeep]
    have htrace : (t.passBegun.passed.recvAppend o).trace =
        s.trace ++ (List.range m).flatMap (s.windowAnswered found) ++ s.windowHeard m := by rw [← htrace, heq]; rfl
    have hwin : (t.passBegun.passed.recvAppend o).win = s.listedWindow m := by rw [heq]; rfl
    generalize t.passBegun.passed.recvAppend o = a at happended hrun hk htrace hwin
    refine ⟨_, 2, happended.answering_of_match hk htrace hf hwin, Nat.le_refl 2, fun n => ?_⟩
    exact (hrun (n + 1)).trans
      (run_reply ((opBlk_congr happended.outside.cmd).trans hb) (happended.outside.silent.trans hs) o n)

/-- The passes and replies of a non-blocking command on its first `m` listed windows (R123). -/
theorem run_receivedAnswering (hb : s.opBlk = false) (hs : s.silent = false) (hm : Memory.wf s.obuf = true) (m : Nat)
    (hrx : m * s.windowSize ≤ s.rx.length)
    (hscan : ∀ j, j < m → sync s.payloadSize (s.listedWindow j) s.cfg.myaddr s.opAko = dataAt (found j))
    (hlt : m ≤ packetCount s.opSize s.payloadSize) :
    ∃ t c, ReceivedAnswering s found m t ∧ c ≤ 2 * m ∧ ∀ n, run (n + c) s.startRecv = run n t.recvHead := by
  induction m with
  | zero =>
    exact ⟨s.loopStart, 0, ⟨received_zero hm, rfl, fun _ => rfl, (List.append_nil _).symm⟩, Nat.le_refl _, fun _ => rfl⟩
  | succ m ih =>
    have hle : m * s.windowSize ≤ (m + 1) * s.windowSize := Nat.mul_le_mul_right _ (Nat.le_succ m)
    obtain ⟨t, c, ht, hc, hrun⟩ := ih (hle.trans hrx) (fun j hj => hscan j (by omega)) (by omega)
    obtain ⟨u, c', hu, hc', hrun'⟩ := ht.succ hb hs hrx (hscan m (Nat.lt_succ_self m)) hlt
    exact ⟨u, c + c', hu, by omega, fun n => by rw [← hrun', ← hrun]; congr 1; omega⟩

/-! ### The end of the run -/

theorem startRecv_rx (s : State) : s.startRecv.rx = s.rx := by
  rw [startRecv_eq, recvHead]
  split <;> rfl

/-- A run whose bound covers its `c` transfers up to where the loop has ended completes there (R128). -/
theorem runRecv_of_run {c : Nat} (hc : c ≤ 3 * s.rx.length + 520) (hrun : ∀ n, run (n + c) s.startRecv = run n t.recvHead)
    (hdone : t.recvDone = true) : s.startRecv.runCommand = { t with
      fsm := .idle, line := [], part := 0, resValid := true, res := t.recvResult } := by
  have hbound : c ≤ s.startRecv.runBound := by
    have hlisted : s.startRecv.rx = s.rx := startRecv_rx s
    rw [runBound, hlisted]
    omega
  obtain ⟨n, hn⟩ := Nat.exists_eq_add_of_le' hbound
  rw [runCommand, hn, hrun, recvHead_done hdone, run_idle _ _ rfl]

end State

open State

/-- Settles O49: after as many passes as windows are listed for it, the loop's test finds the size reached. -/
theorem blockingRecvCollectsPackets : Obligations.BlockingRecvCollectsPackets := by
  intro s n found m hs hm pkts hrx hscan hlt hpkts
  let latched := s.latchRecv n true false
  have hsize : latched.opSize = n.toNat := opSize_latchRecv s n true false
  have hb : latched.opBlk = true := opBlk_latchRecv s n true false
  have hako : latched.opAko = false := opAko_latchRecv s n true false
  have hcount : packetCount latched.opSize latched.payloadSize = pkts := congrArg (packetCount · s.payloadSize) hsize
  obtain ⟨t, ht, hrun⟩ := run_receivedSilently (s := latched) hb hs hm m hrx (by rw [hako]; exact hscan)
    (by rw [hcount]; exact hlt)
  have hdone : t.recvDone = true := by
    have hbt : t.opBlk = true := (opBlk_congr ht.outside.cmd).trans hb
    refine (recvDone_iff t).mpr ?_
    rw [LoopOver, if_pos hbt, opSize_congr ht.outside.cmd ht.outside.par, ht.count, hpkts, hsize]
    exact (packetCountIsCeiling n.toNat s.payloadSize s.par.payloadSize_pos).1
  have hfuel : m ≤ 3 * s.rx.length + 520 := by
    have hone : m * 1 ≤ m * s.windowSize := Nat.mul_le_mul_left m (by rw [windowSize_eq]; omega)
    omega
  have hend := runRecv_of_run (s := latched) hfuel hrun hdone
  refine ⟨_, (exec_recv s n true false).trans (congrArg _ hend), rfl, rfl, ?_, rfl, rfl, ht.txf, ht.rx, ht.trace,
    ht.payloads, ?_, ?_, ?_⟩
  · exact ht.count.trans (congrArg (· * s.payloadSize) hpkts)
  · rw [← hpkts]
    exact ht.kept
  · exact fun j o hj hf hlast => ht.last j o hj hf (hlast.trans hpkts.symm)
  · exact fun hzero => ht.nothing (hpkts.trans hzero)

/-- Settles O56: one pass for each packet, and a reply to each match. -/
theorem nonBlockingRecvAcknowledgesEveryMatch : Obligations.NonBlockingRecvAcknowledgesEveryMatch := by
  intro s n found hs hm pkts w ack hrx hscan
  let latched := s.latchRecv n false false
  have hsize : latched.opSize = n.toNat := opSize_latchRecv s n false false
  have hb : latched.opBlk = false := opBlk_latchRecv s n false false
  have hako : latched.opAko = false := opAko_latchRecv s n false false
  have hcount : packetCount latched.opSize latched.payloadSize = pkts := congrArg (packetCount · s.payloadSize) hsize
  obtain ⟨t, c, ht, hc, hrun⟩ := run_receivedAnswering (s := latched) hb hs hm pkts hrx (by rw [hako]; exact hscan)
    hcount.ge
  have hdone : t.recvDone = true := by
    have hbt : ¬ t.opBlk = true := Bool.eq_false_iff.mp ((opBlk_congr ht.outside.cmd).trans hb)
    refine (recvDone_iff t).mpr ?_
    rw [LoopOver, if_neg hbt, ht.pkts, ht.k, hcount]
  have hfuel : c ≤ 3 * s.rx.length + 520 := by
    have hsmall := t.work.pkts.isLt
    rw [ht.pkts, hcount] at hsmall
    omega
  have hend := runRecv_of_run (s := latched) hfuel hrun hdone
  refine ⟨_, (exec_recv s n false false).trans (congrArg _ hend), rfl, rfl, ht.count, rfl, rfl, ht.rx, ht.trace,
    ht.payloads, ht.kept, ht.last, fun hzero => ⟨ht.nothing hzero, ht.txf hzero⟩⟩

end Sys2Proof.Machine
end

section
/-! The setters (45_config.md R140 to R143): each completes at once, with its own register written from the operand. -/

namespace Sys2Proof.Machine

/-- SETADDR to SETPORT accepted, before the transfer that completes them: the opcode and the operand are latched. -/
def State.latchSetter (s : State) (op : BitVec 4) (a : Byte) : State := (s.latchOp op).latchA a

/-- A completion out of Unit leaves nothing of Unit: it is the state before Unit, in Idle, with the configuration and the
results written. -/
theorem State.complete_setCfg_unit (s : State) (c : NodeConfig) (r : Result) :
    { s.setFsm .unit with cfg := c }.complete r =
      { s with cfg := c, fsm := .idle, line := [], part := 0, resValid := true, res := r } := rfl

theorem exec_setaddr (s : State) (a : Byte) :
    exec (.setaddr a) s = .next
      ({ (s.latchSetter 0x1 a).setFsm .unit with cfg := { s.cfg with myaddr := a } }.complete {}) := rfl

theorem exec_settmo (s : State) (a : Byte) :
    exec (.settmo a) s = .next
      ({ (s.latchSetter 0x2 a).setFsm .unit with cfg := { s.cfg with tmoatt := a } }.complete {}) := rfl

theorem exec_setpin (s : State) (a : Byte) :
    exec (.setpin a) s = .next
      ({ (s.latchSetter 0x3 a).setFsm .unit with cfg := { s.cfg with pinsel := a } }.complete {}) := rfl

theorem exec_setport (s : State) (a : Byte) :
    exec (.setport a) s = .next
      ({ (s.latchSetter 0x4 a).setFsm .unit with cfg := { s.cfg with portsel := a } }.complete {}) := rfl

/-- Settles O30: each setter's one transfer completes it with its register written, and leaves nothing of Unit. -/
theorem settersWriteTheirRegister : Obligations.SettersWriteTheirRegister := by
  intro s a
  refine ⟨?setaddr, ?settmo, ?setpin, ?setport⟩
  case setaddr => rw [exec_setaddr, State.complete_setCfg_unit]; rfl
  case settmo => rw [exec_settmo, State.complete_setCfg_unit]; rfl
  case setpin => rw [exec_setpin, State.complete_setCfg_unit]; rfl
  case setport => rw [exec_setport, State.complete_setCfg_unit]; rfl

end Sys2Proof.Machine
end

section
/-! No exception (60_exceptions.md R150): every action the outside world can take next is answered, in every control
state, and so is none. -/

namespace Sys2Proof.Machine

open State

variable {s : State}

/-- A command word is answered: a ready block accepts it, to run on or only to begin, and any other holds it. -/
theorem step_command_next {w : CmdWord} {rest : List Input} (hi : s.inputs = .command w :: rest) :
    ∃ t, step s = .next t := by
  cases hr : s.cmdReady with
  | false => exact ⟨_, step_notReady hr hi⟩
  | true =>
    cases hq : ({ s with inputs := rest }.latch w).quiet with
    | false => exact ⟨_, step_begin hr hi hq⟩
    | true => exact ⟨_, step_accept hr hi hq⟩

/-- An action that waits while a command runs is answered when an idle block answers it: a running command makes its own
transfer instead (R155). -/
theorem step_next_of_quiet (hq : s.quiet) (hidle : s.fsm = .idle → ∃ t, step s = .next t) : ∃ t, step s = .next t := by
  by_cases hf : s.fsm = .idle
  · exact hidle hf
  · exact ⟨s.transfer, step_transfer hf hq⟩

theorem step_action_next {i : Input} {rest : List Input} (hi : s.inputs = i :: rest) : ∃ t, step s = .next t := by
  cases i with
  | command w => exact step_command_next hi
  | takeResult => exact step_next_of_quiet (by simp [quiet, hi]) fun hf => ⟨_, step_takeResult hf hi⟩
  | writeIbuf addr b => exact step_next_of_quiet (by simp [quiet, hi]) fun hf => ⟨_, step_writeIbuf hf hi⟩
  | writeObuf addr b => exact step_next_of_quiet (by simp [quiet, hi]) fun hf => ⟨_, step_writeObuf hf hi⟩
  | line bytes => exact ⟨_, step_line hi⟩
  | rst m => exact ⟨_, step_reset hi⟩
  | stall m => exact ⟨_, step_stall hi⟩
  | answer => exact ⟨_, step_answer hi⟩
  | wait => exact ⟨_, step_wait hi⟩

/-- Settles O6: the step of each next action is a known state, and with none to come it is a transfer. -/
theorem noStepStops : Obligations.NoStepStops := by
  intro s
  cases hi : s.inputs with
  | nil => exact ⟨s.transfer, step_nil hi⟩
  | cons i rest => exact step_action_next hi

end Sys2Proof.Machine
end

section
/-! The leaf commands and the configuration (70_reset_and_hazards.md R172), and a window of zeros (R176). -/

namespace Sys2Proof.Machine

open State

/-! ### CRC, ENCD, ENCA, DEC and SYNC read no configuration register -/

theorem State.syncCase_setCfg (s : State) (c : NodeConfig) (r : SyncResult) :
    syncCase { s with cfg := c } r = { s.syncCase r with cfg := c } := by
  cases r <;> rfl

theorem State.finishSync_setCfg (s : State) (c : NodeConfig) :
    finishSync { s with cfg := c } = { s.finishSync with cfg := c } :=
  syncCase_setCfg (s.loadWin.scanned s.cmd.a s.cmd.ako) c (s.loadWin.scanResult s.cmd.a s.cmd.ako)

/-- Settles O29: the transfers of CRC, ENCD, ENCA and DEC are the same terms on any configuration, and SYNC's scan takes
its address from the latched word. -/
theorem leafCommandsReadNoConfig : Obligations.LeafCommandsReadNoConfig := by
  intro s cfg a b n ako i hi
  simp only [List.mem_cons, List.not_mem_nil, or_false] at hi
  rcases hi with rfl | rfl | rfl | rfl | rfl
  · exact ⟨_, rfl, rfl, rfl⟩
  · exact ⟨_, rfl, rfl, rfl⟩
  · exact ⟨_, rfl, rfl, rfl⟩
  · exact ⟨_, rfl, rfl, rfl⟩
  · let begun := (((s.latchOp 0x9).latchA a).latchAko ako).setFsm .unit
    exact ⟨begun.finishSync, rfl, (finishSync_sameOutside begun).cfg,
      congrArg Host.Outcome.next (begun.finishSync_setCfg cfg)⟩

/-! ### A window of zeros -/

theorem crc8_replicate_zero (n : Nat) : crc8 (List.replicate n 0) = 0 := by
  induction n with
  | zero => rfl
  | succ n ih => rw [List.replicate_succ', crc8_concat, ih, crc8Step_eq_zero_iff]

theorem slice_replicate (k lo n : Nat) (b : Byte) :
    slice (List.replicate k b) lo n = List.replicate (min n (k - lo)) b := by
  rw [slice, List.drop_replicate, List.take_replicate]

theorem byteAt_replicate_zero (k i : Nat) : byteAt (List.replicate k 0) i = 0 := by
  simp only [byteAt, List.getD_eq_getElem?_getD, List.getElem?_replicate]
  split <;> rfl

/-- Settles O27: zeros are the checksum of zeros, and a kind byte of zero is neither kind's. -/
theorem zeroWindowIsNeverMatched : Obligations.ZeroWindowIsNeverMatched := by
  refine fun p addr ako => ⟨fun o _ => ?_, sync_eq_none_iff.mpr fun o _ ⟨_, _, hkind⟩ => ?_⟩
  · rw [isCandidate, slice_replicate, crc8_replicate_zero, byteAt_replicate_zero]
    rfl
  · rw [byteAt_replicate_zero] at hkind
    cases ako <;> exact absurd hkind (by decide)

end Sys2Proof.Machine
end

section
/-! Reset in the middle of a transfer (70_reset_and_hazards.md R170): the link events, the link's answers and the OBUF
bytes of a transfer's first accesses (20_memory.md R33, R44). -/

namespace Sys2Proof.Machine

namespace Memory

/-- A run of writes cut short has left what the whole run leaves below the cut, and nothing from there on. -/
theorem read_writeBytes_take {m : Memory} {base : Nat} {bs : List Byte} (hm : wf m = true)
    (hb : base + bs.length ≤ 512) (j x : Nat) :
    read (writeBytes m base (bs.take j)) x = if x < base + j then read (writeBytes m base bs) x else read m x := by
  have hlen : (bs.take j).length = min j bs.length := List.length_take
  by_cases hx : x < base ∨ base + min j bs.length ≤ x
  · rw [read_writeBytes_outside (by omega) (by omega)]
    split
    · rw [read_writeBytes_outside hb (by omega)]
    · rfl
  · obtain ⟨i, rfl⟩ : ∃ i, x = base + i := ⟨x - base, by omega⟩
    rw [if_pos (by omega), read_writeBytes_inside hm (by omega) (by omega), read_writeBytes_inside hm hb (by omega)]
    simp only [List.getD_eq_getElem?_getD]
    rw [List.getElem?_take_of_lt (by omega)]

end Memory

namespace State

variable {s : State}

/-! ### The link's part -/

/-- What is received first is the beginning of what is received. -/
theorem linkBytes_min (s : State) (m n : Nat) : s.linkBytes (min m n) = (s.linkBytes n).take m := by
  rcases Nat.le_total m n with h | h
  · obtain ⟨k, rfl⟩ := Nat.exists_eq_add_of_le h
    rw [Nat.min_eq_left h, linkBytes_add, List.take_left' (length_linkBytes s m)]
  · rw [Nat.min_eq_right h, List.take_of_length_le (by rwa [length_linkBytes])]

/-- The link events of the next `n` accesses of the transfer under way. -/
def accessEvents (s : State) (n : Nat) : List LinkEvent :=
  match s.fsm with
  | .sending =>
    ((s.txf.drop s.part).take n).map .tx ++
      if s.frameSize - s.part < n ∧ s.prog.resend = false then [.delay s.par.settleUnits] else []
  | .replying => ((s.txf.drop s.part).take n).map .tx
  | .retrying => if n = 0 then [] else [.delay s.par.retryUnits]
  | .awaitingAck => (s.nextBytes.take n).map .rx
  | .receiving => (s.nextBytes.take n).map .rx
  | .idle => []
  | .acked => []
  | .timedOut => []
  | .unit => []

theorem sendingAccesses_trace (ht : s.txf.length = s.frameSize) (n : Nat) :
    (s.sendingAccesses n).trace = s.trace ++ (((s.txf.drop s.part).take n).map .tx ++
      if s.frameSize - s.part < n ∧ s.prog.resend = false then [.delay s.par.settleUnits] else []) := by
  unfold sendingAccesses
  split
  case isTrue h =>
    have hall : (s.txf.drop s.part).take n = s.txf.drop s.part :=
      List.take_of_length_le (by rw [List.length_drop, ht]; exact Nat.le_of_lt h.1)
    rw [linkDelay_trace, transmit_eq, hall, List.append_assoc]
  case isFalse => rw [sendBytes_eq, List.append_nil]

theorem captureAccesses_link (s : State) (n : Nat) :
    (s.captureAccesses n).trace = s.trace ++ (s.nextBytes.take n).map .rx ∧
    (s.captureAccesses n).rx = s.rx.drop (min n s.windowRest - s.line.length) := by
  rw [captureAccesses, recvBytes_eq, linkBytes_min]
  exact ⟨rfl, rfl⟩

/-- The append of a pass makes no request of the link. -/
theorem receivingAccesses_link (s : State) (n : Nat) :
    (s.receivingAccesses n).trace = s.trace ++ (s.nextBytes.take n).map .rx ∧
    (s.receivingAccesses n).rx = s.rx.drop (min n s.windowRest - s.line.length) := by
  unfold receivingAccesses
  split
  case isTrue => exact captureAccesses_link s n
  case isFalse h =>
    have hle : s.windowRest ≤ n := Nat.le_of_not_le h
    have hall : s.nextBytes.take n = s.nextBytes := List.take_of_length_le (by rwa [nextBytes, length_linkBytes])
    rw [hall, Nat.min_eq_right hle, capture_eq]
    exact ⟨rfl, rfl⟩

theorem firstAccesses_trace (ht : s.txf.length = s.frameSize) (n : Nat) :
    (s.firstAccesses n).trace = s.trace ++ s.accessEvents n := by
  obtain ⟨f, hf⟩ : ∃ f, s.fsm = f := ⟨_, rfl⟩
  cases f <;> simp only [firstAccesses, accessEvents, hf, List.append_nil]
  case sending => exact sendingAccesses_trace ht n
  case awaitingAck => exact (captureAccesses_link s n).1
  case receiving => exact (receivingAccesses_link s n).1
  case replying => rw [sendBytes_eq]
  case retrying =>
    split
    · exact (List.append_nil _).symm
    · rfl
  case unit => rfl

/-- Only a capture takes answers of the link. -/
theorem firstAccesses_rx (s : State) (n : Nat) :
    (s.firstAccesses n).rx =
      if s.fsm.listens then s.rx.drop (min n s.windowRest - s.line.length) else s.rx := by
  obtain ⟨f, hf⟩ : ∃ f, s.fsm = f := ⟨_, rfl⟩
  cases f <;> simp only [firstAccesses, hf, Fsm.listens, if_true, Bool.false_eq_true, if_false]
  case sending =>
    unfold sendingAccesses
    split
    · rw [linkDelay_rx, transmit_eq]
    · rw [sendBytes_eq]
  case awaitingAck => exact (captureAccesses_link s n).2
  case receiving => exact (receivingAccesses_link s n).2
  case replying => rw [sendBytes_eq]
  case retrying => split <;> rfl
  case unit => rfl

/-! ### OBUF's part -/

/-- An append follows the whole capture, and a one-step command's bytes are its only accesses. -/
theorem firstAccesses_read_obuf (h : s.Inv) (n x : Nat) :
    Memory.read (s.firstAccesses n).obuf x =
      if (s.fsm = .receiving ∧ x < s.work.bytesDone.toNat + (n - s.windowRest)) ∨ (s.fsm = .unit ∧ x < n) then
        Memory.read s.tick.obuf x
      else Memory.read s.obuf x := by
  obtain ⟨-, hwf, -, -⟩ := h.buf
  have hfit : s.transferBase + s.transferStores.length ≤ 512 := h.transferStores_le.trans (by decide)
  rw [firstAccesses_obuf, tick_obuf, Memory.read_writeBytes_take hwf hfit]
  by_cases hr : s.fsm = .receiving
  · simp only [transferBase, hr, if_true, true_and, reduceCtorEq, false_and, or_false]
  · by_cases hu : s.fsm = .unit
    · simp only [transferBase, hu, reduceCtorEq, if_false, false_and, true_and, false_or, Nat.zero_add, Nat.sub_zero]
    · simp only [transferStores, hr, hu, if_false, false_and, or_false]
      exact ite_self _

/-! ### Reset -/

theorem stalled_iff (s : State) : s.stalled = true ↔ s.silent = true ∧ s.fsm.usesLink = true := Bool.and_eq_true_iff

end State

open State

/-- Settles O58: reset keeps what the first accesses of the transfer have done to the link and to OBUF, and puts the rest
at the table's values. -/
theorem resetCutsTransferShort : Obligations.ResetCutsTransferShort := by
  intro s m rest hinv hi n left
  let cut : State := { s with inputs := rest }
  have hn : (if cut.stalled then 0 else m) = n := if_congr (stalled_iff s) rfl rfl
  obtain ⟨-, -, htxf, -⟩ := hinv.buf
  have hpart := firstAccesses_partOf cut n
  have hrx := firstAccesses_rx cut n
  have hlistens := listens_iff s.fsm
  have hstep : step s = .next (cut.firstAccesses n).afterReset := by rw [step_reset hi, resetAfter, hn]
  refine ⟨_, s.accessEvents n, hstep, rfl, rfl, rfl, hpart.inputs, rfl, ?past, fun hf => ?sending, fun hf => ?replying,
    fun hf => ?retrying, fun hf => ⟨?heard, ?taken⟩, fun hf => ?none, fun ha hr => ?kept, fun x => ?obuf⟩
  case past =>
    rw [afterReset_past, hpart.past, firstAccesses_trace (s := cut) htxf, List.append_assoc]
    rfl
  case sending => rw [accessEvents, hf]
  case replying => rw [accessEvents, hf]
  case retrying => rw [accessEvents, hf]
  case heard => rcases hf with hf | hf <;> rw [accessEvents, hf] <;> rfl
  case taken => exact hrx.trans (if_pos (hlistens.mpr hf))
  case none => rcases hf with hf | hf | hf | hf <;> rw [accessEvents, hf]
  case kept => exact hrx.trans (if_neg fun hl => (hlistens.mp hl).elim ha hr)
  case obuf =>
    have hobuf := firstAccesses_read_obuf (s := cut) hinv n x
    rwa [tick_ignores] at hobuf

end Sys2Proof.Machine
end

section
/-! A link that does not answer (70_reset_and_hazards.md R186, R188): where a command waits, what can reach it there, and
that a wait inside a transfer only delays it. -/

namespace Sys2Proof.Machine

namespace State

variable {s : State}

/-! ### A command on a silent link -/

theorem runCommand_stalled (h : s.stalled = true) : s.runCommand = s :=
  run_awaits s _ (by rw [awaitsLink, h, Bool.true_or])

/-- The block is at its first request in control state `f`, the link silent and no event of it yet in the trace. -/
abbrev AtFirstRequest (s t : State) (f : Fsm) : Prop :=
  t.fsm = f ∧ t.part = 0 ∧ t.silent = true ∧ t.trace = s.trace

theorem startSend_stalls (hop : s.cmd.op = 0xA) (hn : s.cmd.n.toNat ≠ 0) (hs : s.silent = true) :
    AtFirstRequest s s.startSend.runCommand .sending := by
  have hstart := startSend_message hop hn
  have hstalled : s.startSend.stalled = true := by
    rw [hstart]
    exact (stalled_iff _).mpr ⟨hs, rfl⟩
  rw [runCommand_stalled hstalled, hstart]
  exact ⟨rfl, rfl, hs, rfl⟩

theorem startRecv_stalls (hn : s.opSize ≠ 0) (hs : s.silent = true) :
    AtFirstRequest s s.startRecv.runCommand .receiving := by
  let begun := s.dropLine.countPackets.clearRecv.setFsm .receiving
  have hstalled : begun.stalled = true := (stalled_iff begun).mpr ⟨hs, rfl⟩
  rw [startRecv_of_pos hn, runCommand_stalled hstalled]
  exact ⟨rfl, rfl, hs, rfl⟩

/-- A silent link falls no more silent. -/
theorem fallSilent_of_silent (hs : s.silent = true) (m : Nat) : s.fallSilent m = s := by
  rw [fallSilent, if_pos hs, ← hs]

end State

open State

/-- Of the ways a step can go, a stalled command leaves only reset, bytes on the line, a wait and the link's own. -/
theorem step_stalled_cases {s t : State} (hs : s.stalled = true) (h : step s = .next t) :
    t = { s with inputs := t.inputs, line := t.line, silent := t.silent } ∨ ∃ m rest, s.inputs = .rst m :: rest := by
  obtain ⟨hsilent, huses⟩ := (stalled_iff s).mp hs
  have hbusy : s.fsm ≠ .idle := fun hf => by rw [hf] at huses; cases huses
  cases step_cases h with
  | reset m rest hi _ => exact Or.inr ⟨m, rest, hi⟩
  | line bytes rest _ ht => exact Or.inl (ht ▸ rfl)
  | transfer rest _ _ hs' _ => exact absurd (hs.symm.trans hs') (by decide)
  | waits rest _ _ ht => exact Or.inl (ht ▸ rfl)
  | stall m rest _ ht =>
    rw [fallSilent_of_silent (s := { s with inputs := rest }) hsilent] at ht
    exact Or.inl (ht ▸ rfl)
  | answer rest _ ht => exact Or.inl (ht ▸ rfl)
  | still _ hf _ _ | take _ hf _ _ | writeIbuf _ _ _ hf _ _ | writeObuf _ _ _ hf _ _ | accept _ _ hf _ _ _ _
  | started _ _ hf _ _ _ _ => exact absurd hf hbusy

/-- Settles O59: the run of a command stops where the link stalls it, and no step of the stalled command is a transfer. -/
theorem silentLinkStallsCommand : Obligations.SilentLinkStallsCommand := by
  refine ⟨fun s a n blk ako hs hn => ?_, fun s hs hf => ?_⟩
  · have hn : n.toNat ≠ 0 := fun h => hn (BitVec.eq_of_toNat_eq h)
    have hP : s.payloadSize ≠ 0 := Nat.ne_of_gt s.par.payloadSize_pos
    exact ⟨⟨_, exec_send s a n blk, startSend_stalls (s := s.latchSend a n blk) rfl hn hs⟩,
      ⟨_, exec_recv s n blk ako, startRecv_stalls (s := s.latchRecv n blk ako) (opSize_latchRecv s n blk ako ▸ hn) hs⟩,
      ⟨_, rfl, startRecv_stalls (s := s.latchOp 0xC) hP hs⟩⟩
  · have huses : s.fsm.usesLink = true := by rcases hf with hf | hf | hf | hf | hf <;> rw [hf] <;> rfl
    have hbusy : s.fsm ≠ .idle := fun hidle => by rw [hidle] at huses; cases huses
    have hstalled : s.stalled = true := (stalled_iff s).mpr ⟨hs, huses⟩
    refine ⟨?_, fun hq => by rw [step_transfer hbusy hq, transfer_stalled hstalled], fun t => step_stalled_cases hstalled⟩
    exact Bool.eq_false_iff.mpr fun hr => hbusy (cmdReady_iff.mp hr).1

namespace State

variable {s : State}

/-! ### A wait inside a transfer -/

theorem transmitPart_eq (s : State) (m : Nat) : s.transmitPart m = { s with
    trace := s.trace ++ ((s.txf.take (s.part + m)).drop s.part).map .tx, part := s.part + m } := by
  rw [transmitPart, sendBytes_eq, List.drop_take, Nat.add_sub_cancel_left]

theorem capturePart_eq (s : State) (m : Nat) : s.capturePart m = { s with
    trace := s.trace ++ (s.linkBytes m).map .rx, line := s.line.drop m, rx := s.rx.drop (m - s.line.length)
    draws := s.draws + (m - (s.line.length + s.rx.length))
    win := s.win.take s.part ++ s.linkBytes m ++ s.win.drop (s.part + m), part := s.part + m } := by
  rw [capturePart, recvBytes_eq]

/-- How many requests the link may answer before it falls silent: all but the transfer's last. -/
theorem requests_transmit (h : s.fsm = .sending ∨ s.fsm = .replying) :
    s.requests - 1 = s.frameSize - s.part - if s.fsm = .sending ∧ s.prog.resend = false then 0 else 1 := by
  rcases h with h | h <;> simp only [requests, h, true_and, reduceCtorEq, false_and, if_false]
  cases s.prog.resend
  · exact Nat.add_sub_cancel _ _
  · rfl

theorem requests_capture (h : s.fsm = .awaitingAck ∨ s.fsm = .receiving) : s.requests = s.windowRest := by
  rcases h with h | h <;> simp only [requests, h]

theorem goOn_transmit (h : s.fsm = .sending ∨ s.fsm = .replying) (m : Nat) : s.goOn m = s.transmitPart m := by
  rcases h with h | h <;> simp only [goOn, h]

theorem goOn_capture (h : s.fsm = .awaitingAck ∨ s.fsm = .receiving) (m : Nat) : s.goOn m = s.capturePart m := by
  rcases h with h | h <;> simp only [goOn, h]

/-- A transfer of one request or none has no middle to stop in. -/
theorem goOn_eq_self (h : s.fsm = .acked ∨ s.fsm = .retrying ∨ s.fsm = .timedOut ∨ s.fsm = .unit) (m : Nat) :
    s.goOn m = s := by
  rcases h with h | h | h | h <;> simp only [goOn, h]

theorem fallSilent_answering (hs : s.silent = false) (m : Nat) :
    s.fallSilent m = { s.goOn (min m (s.requests - 1)) with silent := true } := by
  rw [fallSilent, if_neg (Bool.eq_false_iff.mp hs)]

/-- The control transfer after a wait is the one without it (R188). -/
theorem Inv.tick_fallSilent (h : s.Inv) (hs : s.silent = false) (m : Nat) :
    tick { s.fallSilent m with silent := false } = s.tick := by
  obtain ⟨_, hgo⟩ := s.goOn_eq (min m (s.requests - 1))
  have hsilent : (s.goOn (min m (s.requests - 1))).silent = false := by rw [hgo]; exact hs
  rw [fallSilent_answering hs, ← tick_goOn h (Nat.min_le_right m (s.requests - 1)), ← hsilent]

end State

/-- Settles O60: the link's answers before the silence are a part of the transfer, and the transfer after it makes the
rest. -/
theorem stallOnlyDelays : Obligations.StallOnlyDelays := by
  intro s m rest hinv hs _ hi
  let before : State := { s with inputs := .answer :: .wait :: rest }
  have hanswered := fallSilent_answering (s := before) hs m
  obtain ⟨new, hframe⟩ := fallSilent_eq before m
  have hinputs : (before.fallSilent m).inputs = .answer :: .wait :: rest := by rw [hframe]
  have hdone : tick { before.fallSilent m with inputs := rest, silent := false } = tick { s with inputs := rest } := by
    rw [tick_ignores { before.fallSilent m with silent := false }, Inv.tick_fallSilent (s := before) hinv hs,
      ← tick_ignores]
  refine ⟨before.fallSilent m, { before.fallSilent m with inputs := .wait :: rest, silent := false },
    tick { s with inputs := rest }, step_stall hi, step_answer hinputs, ?resumed,
    step_wait_tick (s := { s with inputs := .wait :: rest }) hs rfl, rfl, ?frame, fun hf => ?transmit, fun hf => ?capture,
    fun hf => ?other⟩
  case resumed =>
    rw [step_wait_tick rfl rfl]
    exact congrArg Host.Outcome.next hdone
  case frame => rw [hframe]
  case transmit =>
    rw [hanswered, goOn_transmit (s := before) hf, requests_transmit (s := before) hf, transmitPart_eq]
    exact ⟨rfl, rfl, rfl, rfl, rfl, rfl⟩
  case capture =>
    rw [hanswered, goOn_capture (s := before) hf, requests_capture (s := before) hf, capturePart_eq]
    simp only [length_linkBytes]
    exact ⟨rfl, rfl, rfl, rfl, rfl⟩
  case other => rw [hanswered, goOn_eq_self (s := before) hf]

end Sys2Proof.Machine
end
